-- ==== Sys2Proof/Word.lean ====
section
/-! DEFINITION. The three word widths of the Engine (00_scope.md R6, R10; 30_encoding.md R62). -/

namespace Sys2Proof

/-- Eight bits: an input byte, an output byte, a byte of the state array. -/
abbrev Byte := BitVec 8

/-- One 64-bit lane of the state array (R6, R20). -/
abbrev Lane := BitVec 64

/-- A 16-bit command word `CW` (R62). -/
abbrev CmdWord := BitVec 16

end Sys2Proof
end

