-- ==== Sys2Proof/Syntax.lean ====
section
/-! DEFINITION. The four commands of the opcode table (30_encoding.md R65, R66). -/

namespace Sys2Proof

/-- A legal command: one constructor for each row of spec/opcode_table.json. -/
inductive Instr where
  /-- INIT, `new()` (R100). -/
  | init
  /-- ABSORB d, `update` of one byte (R102). The operand is any byte (R66). -/
  | absorb (d : Byte)
  /-- FINALIZE, `finalize_xof()` (R103). -/
  | finalize
  /-- SQUEEZE, `read` of one byte (R104). -/
  | squeeze
deriving DecidableEq, Repr

end Sys2Proof
end

