-- ==== Sys2Proof/Decode.lean ====
section
/-! DEFINITION. The command word, its decoder and its encoder (30_encoding.md R62, R65 to R69). The decoder
reads the fields `op` and `d` of R62. The opcode map of R65 (match and mask) stands beside it as a table. -/

namespace Sys2Proof

/-- The opcode field `CW[15:8]` (R62). -/
def opField (w : CmdWord) : Byte := w.extractLsb' 8 8

/-- The operand field `CW[7:0]` (R62). -/
def dField (w : CmdWord) : Byte := w.extractLsb' 0 8

/-- A word from its two fields, `op` in the more significant half (R62). -/
def cmdWord (op d : Byte) : CmdWord := op ++ d

/-- Decoding, a total function of the word alone (R68). `none` is ILLEGAL (R67): an opcode other than the
four, or a non-zero operand byte of a command that has no operand. -/
def decode (w : CmdWord) : Option Instr :=
  if opField w = 0x02#8 then some (.absorb (dField w))
  else if dField w = 0x00#8 then
    if opField w = 0x01#8 then some .init
    else if opField w = 0x03#8 then some .finalize
    else if opField w = 0x04#8 then some .squeeze
    else none
  else none

/-- The word of a command (R65, R66). -/
def encode : Instr → CmdWord
  | .init => cmdWord 0x01#8 0x00#8
  | .absorb d => cmdWord 0x02#8 d
  | .finalize => cmdWord 0x03#8 0x00#8
  | .squeeze => cmdWord 0x04#8 0x00#8

/-- The `match` value of a command's row in the opcode map (R65). -/
def rowMatch : Instr → CmdWord
  | .init => 0x0100#16
  | .absorb _ => 0x0200#16
  | .finalize => 0x0300#16
  | .squeeze => 0x0400#16

/-- The `mask` value of a command's row in the opcode map (R65). -/
def rowMask : Instr → CmdWord
  | .init => 0xFFFF#16
  | .absorb _ => 0xFF00#16
  | .finalize => 0xFFFF#16
  | .squeeze => 0xFFFF#16

/-- The instruction read from a word whose bits are `w`, of which the opcode table gives `nbits` (bits from
`nbits` up are 0). A command word is one 16-bit unit on `cmd_word` (R60, R62), so it needs no byte order
(DEDUCED, safe, log entry 3). -/
def decodeTableWord (nbits w : Nat) : Option Instr :=
  if w % 2 ^ nbits < 65536 then decode (BitVec.ofNat 16 (w % 2 ^ nbits)) else none

end Sys2Proof
end

