-- ==== Sys2Proof/Config.lean ====
section
/-! DEFINITION. What an implementation fixes and the spec leaves open: the two cycle counts (00_scope.md R7)
and the value of `rsp_data` while no response is presented (93_implementation_defined.md U4). All are opaque:
nothing can be proved of their values. -/

namespace Sys2Proof

/-- FREE VALUE (U4, "any value"; DESIGN CHOICE, safe, log entry 5): what `rsp_data` carries in the model's `n`-th step when
`rsp_valid` = 0. -/
opaque Config.idleRspData : Nat → Byte

/-- `PERM_CYCLES` less one (R7; DEDUCED, safe, log entry 8). -/
opaque Config.permCyclesExtra : Nat

/-- `CMD_CYCLES` less one (R7; DEDUCED, safe, log entry 8). -/
opaque Config.cmdCyclesExtra : Nat

/-- `PERM_CYCLES`, an open parameter, at least 1 (R7). -/
def Config.permCycles : Nat := Config.permCyclesExtra + 1

/-- `CMD_CYCLES`, an open parameter, at least 1 (R7). -/
def Config.cmdCycles : Nat := Config.cmdCyclesExtra + 1

end Sys2Proof
end

