-- ==== Sys2Proof/Machine/Params.lean ====
section
/-! DEFINITION. The fixed parameters of the hardware (00_scope.md R6); none is configurable. -/

namespace Sys2Proof.Machine

/-- `RATE`: bytes of the state exposed to input and output. -/
abbrev rate : Nat := 136

/-- `CAPACITY`: hidden bytes of the state. -/
abbrev capacity : Nat := 64

/-- `LANES`: lanes of the state array. -/
abbrev laneCount : Nat := 25

/-- `ROUNDS`: rounds of one permutation. -/
abbrev rounds : Nat := 24

/-- `RATE_LANES`: the rate covers lanes 0 to 16 exactly. -/
abbrev rateLanes : Nat := 17

/-- `DS`: the domain-separation byte. -/
def ds : Byte := 0x1F#8

/-- `PADEND`: the top bit of the last byte of the rate block. -/
def padEnd : Byte := 0x80#8

/-- `DSEND`: `DS OR PADEND`, used when both fall in byte `RATE - 1`. -/
def dsEnd : Byte := 0x9F#8

end Sys2Proof.Machine
end

