-- ==== Sys2Proof/Machine/Lanes.lean ====
section
/-! DEFINITION. The state array as a 5 x 5 matrix of 64-bit lanes, and its two ways of naming a lane: by
coordinates `(x, y)` modulo 5 and by index `x + 5y` (00_scope.md R11, 10_state.md R20). -/

namespace Sys2Proof.Machine

/-- Five like things, indexed by a coordinate modulo 5 (R11). -/
structure Five (α : Type) where
  x0 : α
  x1 : α
  x2 : α
  x3 : α
  x4 : α
deriving DecidableEq, Repr

/-- The entry at a coordinate. -/
def Five.get {α : Type} (v : Five α) (i : Fin 5) : α :=
  match i with
  | 0 => v.x0
  | 1 => v.x1
  | 2 => v.x2
  | 3 => v.x3
  | 4 => v.x4

/-- The five entries of a function of the coordinate. -/
def Five.build {α : Type} (f : Fin 5 → α) : Five α := ⟨f 0, f 1, f 2, f 3, f 4⟩

/-- The state array `A` (R20): five rows, `y` = 0 to 4, of five lanes, `x` = 0 to 4. -/
abbrev Lanes := Five (Five Lane)

/-- `A[x,y]` (R11, R12). -/
def Lanes.at (A : Lanes) (x y : Fin 5) : Lane := (A.get y).get x

/-- The array whose lane at `(x, y)` is `f x y`. -/
def Lanes.build (f : Fin 5 → Fin 5 → Lane) : Lanes := Five.build fun y => Five.build fun x => f x y

/-- `x = i mod 5` of a lane index (R11). -/
def laneX (i : Nat) : Fin 5 := ⟨i % 5, Nat.mod_lt i (by decide)⟩

/-- `y = i div 5` of a lane index in 0..24 (R11). -/
def laneY (i : Nat) : Fin 5 := ⟨i / 5 % 5, Nat.mod_lt (i / 5) (by decide)⟩

/-- `A[i]` for a lane index `i` in 0..24 (R11, R12). -/
def Lanes.lane (A : Lanes) (i : Nat) : Lane := A.at (laneX i) (laneY i)

/-- `A[i] <- v` for a lane index `i` in 0..24 (R12): every other lane keeps its value. -/
def Lanes.setLane (A : Lanes) (i : Nat) (v : Lane) : Lanes :=
  Lanes.build fun x y => if x = laneX i ∧ y = laneY i then v else A.at x y

/-- The all-zero array. -/
def Lanes.zero : Lanes := Lanes.build fun _ _ => 0#64

end Sys2Proof.Machine
end

