-- ==== Sys2Proof/Machine/State.lean ====
section
/-! DEFINITION. The state of one Engine and its port, as plain data (10_state.md, 30_encoding.md R60 to R64,
70_reset_and_hazards.md R150), the reasons a step can stop, and the state after reset. -/

namespace Sys2Proof.Machine

/-- The phase (R27). -/
inductive Phase where
  | absorbing
  | squeezing
deriving DecidableEq, Repr

/-- The causes a command can raise (R131); the numbers are in Machine/Flags.lean. -/
inductive Cause where
  /-- ABSORB while Squeezing. -/
  | absorbInSqueezing
  /-- SQUEEZE while Absorbing. -/
  | squeezeInAbsorbing
  /-- FINALIZE while Squeezing. -/
  | finalizeInSqueezing
  /-- A word that is no command. -/
  | illegalCommand
deriving DecidableEq, Repr

/-- What the outside world does to the Engine in one transaction (R60, R61, R150). -/
inductive HostInput where
  /-- The input pins in a clock cycle in which no command is in execution (`cmd_ready` = 1). -/
  | cycle (rst cmdValid : Bool) (cmdWord : CmdWord)
  /-- A command is issued, and `rst` is raised before it has completed (R150). -/
  | abandoned (cmdWord : CmdWord)
deriving DecidableEq, Repr

/-- Why the machine can stop. Neither can happen in a state with the legal values of R25 and R28, so in no
state a run from reset reaches (DEDUCED, safe, log entry 7); the Engine's own faults (R134) are next states. -/
inductive Fault where
  /-- Raised by ABSORB and FINALIZE when the buffer holds 136 bytes or more, a length R25 says is never held
  between commands. Safe: the model stops where the spec gives no byte to write. -/
  | bufferOverrun
  /-- Raised by SQUEEZE when the cursor is 136 or more, a value R28 says is never held between commands.
  Safe: the model stops where the spec gives no window byte. -/
  | windowOverrun
deriving DecidableEq, Repr

/-- Why an instruction has no meaning here. -/
inductive Refusal where
  /-- An instruction the model gives no meaning; raised by `exec` alone. Safe. No instruction of the table
  is left so. -/
  | notModelled (mnemonic : String)
deriving DecidableEq, Repr

/-- The state of one Engine (the first seven fields: R20 to R31) and of its port as the model keeps it (the
last four: the model's own, log entries 1, 4 and 5). `buf_len` is the length of `buf`, as R24 says. -/
@[ext]
structure State where
  /-- `A[0..24]` (R20). -/
  lanes : Lanes
  /-- `buf`, oldest byte first (R24). -/
  buf : List Byte
  /-- `phase` (R27). -/
  phase : Phase
  /-- `sq_cursor` (R28). -/
  sqCursor : BitVec 8
  /-- `need_perm` (R29). -/
  needPerm : Bool
  /-- `fault` (R30). -/
  fault : Bool
  /-- `err_code` (R31). -/
  errCode : BitVec 3
  /-- The byte the last transaction presented on the response channel, if any (R63). -/
  rsp : Option Byte
  /-- The output stream: every byte emitted so far, first byte first (R40, R158).
  DESIGN CHOICE (unsafe, log entry 4): empty at reset, kept across reset and INIT. -/
  emitted : List Byte
  /-- The host's coming inputs, next one first (R40, R60).
  DESIGN CHOICE (unsafe, log entry 1): empty at reset. -/
  pending : List HostInput
  /-- The model's step counter, read only by the free value of `rsp_data` (U4).
  DESIGN CHOICE (safe, log entry 5): 0 at reset. -/
  tick : Nat
deriving DecidableEq, Repr

/-- The machine right after hardware reset (R150): nothing offered yet, nothing emitted yet. -/
def State.reset : State where
  lanes := Lanes.zero
  buf := []
  phase := .absorbing
  sqCursor := 0#8
  needPerm := false
  fault := false
  errCode := 0#3
  rsp := none
  emitted := []
  pending := []
  tick := 0

end Sys2Proof.Machine
end

