-- ==== Sys2Proof/Machine/Flags.lean ====
section
/-! DEFINITION. The flags as bits, the cause codes, and the outputs of the port (10_state.md R25, R27, R37;
30_encoding.md R60, R63, R64; 60_exceptions.md R131). -/

namespace Sys2Proof.Machine

/-- The one-bit encoding of the phase (R27). -/
def Phase.bit : Phase → BitVec 1
  | .absorbing => 0#1
  | .squeezing => 1#1

/-- The numeric code of a cause (R131). Code 0 is `NONE`; 5, 6 and 7 are not used. -/
def Cause.code : Cause → BitVec 3
  | .absorbInSqueezing => 1#3
  | .squeezeInAbsorbing => 2#3
  | .finalizeInSqueezing => 3#3
  | .illegalCommand => 4#3

/-- `buf_len`, the 8-bit number of buffered bytes (R25). -/
def State.bufLen (s : State) : BitVec 8 := BitVec.ofNat 8 s.buf.length

/-- `st_phase` (R37, R64). -/
def State.stPhase (s : State) : BitVec 1 := s.phase.bit

/-- `st_fault` (R37, R64). -/
def State.stFault (s : State) : BitVec 1 := BitVec.ofBool s.fault

/-- `st_err` (R37, R64). -/
def State.stErr (s : State) : BitVec 3 := s.errCode

/-- `rsp_valid` as the last transaction left it (R63). -/
def State.rspValid (s : State) : Bool := s.rsp.isSome

/-- `rsp_data` (R63): the byte presented, and a free value while `rsp_valid` = 0 (U4, log entry 5). -/
def State.rspData (s : State) : Byte :=
  match s.rsp with
  | some b => b
  | none => Config.idleRspData s.tick

/-- `cmd_ready` between two transactions (R61): the last command has completed, so a word can be taken. -/
def State.cmdReady (_ : State) : Bool := true

end Sys2Proof.Machine
end

