-- ==== Sys2Proof/Machine/Operands.lean ====
section
/-! DEFINITION. The byte view of the state array and the padding block (20_memory.md R41 to R43,
41_sponge_commands.md R105). -/

namespace Sys2Proof.Machine

/-- `zext_64` of a byte (R10). -/
def zext64 (b : Byte) : Lane := b.setWidth 64

/-- `SB(k)` for `k` in 0..199: byte `k mod 8`, least significant first, of lane `k div 8` (R41). -/
def sb (A : Lanes) (k : Nat) : Byte := (A.lane (k / 8)).extractLsb' (8 * (k % 8)) 8

/-- `SBXOR(k, b)` for `k` in 0..199 (R42). -/
def sbXor (A : Lanes) (k : Nat) (b : Byte) : Lanes :=
  A.setLane (k / 8) (A.lane (k / 8) ^^^ (zext64 b <<< (8 * (k % 8))))

/-- `XORBLOCK(blk)` for a block of 136 bytes: byte `j` into state byte `j`, `j` from 0 to 135 (R43). -/
def xorBlock (A : Lanes) (blk : List Byte) : Lanes :=
  (List.range rate).foldl (fun A j => sbXor A j (blk.getD j 0#8)) A

/-- `blk[i] = blk[i] OR b` on a block (R105). -/
def orByte (blk : List Byte) (i : Nat) (b : Byte) : List Byte := blk.set i (blk.getD i 0#8 ||| b)

/-- `PADBLOCK(buf, n)` with `n` the length of `buf`, 0 to 135 (R105): the buffered bytes, then zeros, with
`DS` ORed into byte `n` and `PADEND` into byte 135. -/
def padBlock (buf : List Byte) : List Byte :=
  orByte (orByte (buf ++ List.replicate (rate - buf.length) 0x00#8) buf.length ds) (rate - 1) padEnd

/-- The lane that eight bytes form, `{ blk[8i+7], ..., blk[8i] }` (R41, R43): the least significant byte is
the one of lowest index. -/
def laneOfBytes (byte : Nat → Byte) (i : Nat) : Lane :=
  byte (8 * i + 7) ++ byte (8 * i + 6) ++ byte (8 * i + 5) ++ byte (8 * i + 4) ++
    byte (8 * i + 3) ++ byte (8 * i + 2) ++ byte (8 * i + 1) ++ byte (8 * i)

end Sys2Proof.Machine
end

