-- ==== Sys2Proof/Machine/Permutation.lean ====
section
/-! DEFINITION. The Permutation Core: Keccak-f[1600] (40_permutation.md R80 to R92). TESTED (unsafe, log
entry 12): the spec takes formulas and tables from the published definition and records their comparison. -/

namespace Sys2Proof.Machine

/-- `ROTL64(v, n)` for `n` in 0..63: cyclic rotation toward more significant bits (R80). -/
def rotl64 (v : Lane) (n : Nat) : Lane :=
  if n = 0 then v else (v <<< n) ||| (v >>> (64 - n))

/-- The rotation-offset table by lane index (R84, R95). -/
def rotTable : List Nat :=
  [ 0,  1, 62, 28, 27,
   36, 44,  6, 55, 20,
    3, 10, 43, 25, 39,
   41, 45, 15, 21,  8,
   18,  2, 61, 56, 14]

/-- `ROT[x,y]` (R84). -/
def rot (x y : Fin 5) : Nat := rotTable.getD (x.val + 5 * y.val) 0

/-- The round-constant table (R90, R95). -/
def rcTable : List Lane :=
  [0x0000000000000001, 0x0000000000008082, 0x800000000000808A, 0x8000000080008000,
   0x000000000000808B, 0x0000000080000001, 0x8000000080008081, 0x8000000000008009,
   0x000000000000008A, 0x0000000000000088, 0x0000000080008009, 0x000000008000000A] ++
  [0x000000008000808B, 0x800000000000008B, 0x8000000000008089, 0x8000000000008003,
   0x8000000000008002, 0x8000000000000080, 0x000000000000800A, 0x800000008000000A,
   0x8000000080008081, 0x8000000000008080, 0x0000000080000001, 0x8000000080008008]

/-- `RC[i]` for a round index `i` in 0..23 (R90). -/
def rc (i : Nat) : Lane := rcTable.getD i 0

/-- `C[x]`, the parity of column `x` (R83). -/
def columnParity (A : Lanes) (x : Fin 5) : Lane :=
  A.at x 0 ^^^ A.at x 1 ^^^ A.at x 2 ^^^ A.at x 3 ^^^ A.at x 4

/-- `D[x]` (R83). -/
def thetaMask (A : Lanes) (x : Fin 5) : Lane :=
  columnParity A (x + 4) ^^^ rotl64 (columnParity A (x + 1)) 1

/-- theta (R83). -/
def theta (A : Lanes) : Lanes := Lanes.build fun x y => A.at x y ^^^ thetaMask A x

/-- rho (R85). -/
def rho (A : Lanes) : Lanes := Lanes.build fun x y => rotl64 (A.at x y) (rot x y)

/-- pi, as what each destination reads (R86). -/
def pi (A : Lanes) : Lanes := Lanes.build fun x y => A.at (x + 3 * y) x

/-- chi (R87). -/
def chi (A : Lanes) : Lanes :=
  Lanes.build fun x y => A.at x y ^^^ (~~~(A.at (x + 1) y) &&& A.at (x + 2) y)

/-- iota with round index `i` (R88). -/
def iota (A : Lanes) (i : Nat) : Lanes :=
  Lanes.build fun x y => if x = 0 ∧ y = 0 then A.at 0 0 ^^^ rc i else A.at x y

/-- One round (R82, R91). -/
def rnd (A : Lanes) (i : Nat) : Lanes := iota (chi (pi (rho (theta A)))) i

/-- The 24 rounds, round 0 first (R92). -/
def keccakF (A : Lanes) : Lanes := (List.range rounds).foldl rnd A

end Sys2Proof.Machine
end

