-- ==== Sys2Proof/Machine/Ops.lean ====
section
/-! DEFINITION. The named operations on the state that the commands share: `PERMUTE()`, `XORBLOCK` into the
state, `emit`, refusing a command, and taking a fault, the Engine's one exception. There is no return from a
fault beside it: R137 gives the hardware none but reset, which is `hardReset` in Machine/Port.lean. -/

namespace Sys2Proof.Machine

/-- `PERMUTE()` (R92): rewrites the state array and nothing else. -/
def State.permute (s : State) : State := { s with lanes := keccakF s.lanes }

/-- `XORBLOCK(blk)` then `PERMUTE()`: how a block enters the sponge (R102, R103). -/
def State.absorbBlock (s : State) (blk : List Byte) : State :=
  State.permute { s with lanes := xorBlock s.lanes blk }

/-- The end of a transaction that presents no response: `rsp_valid` = 0 (R63). -/
def State.silent (s : State) : State := { s with rsp := none }

/-- `emit(b)` (R12, R63): exactly one response, the next byte of the output stream. -/
def State.emit (s : State) (b : Byte) : State := { s with rsp := some b, emitted := s.emitted ++ [b] }

/-- A refused command (R136): it is accepted on the channel, changes no state element and emits nothing. -/
def State.refuse (s : State) : State := s.silent

/-- `raise Fault(code)` by a command issued while `fault` = 0 (R134): the two writes, no response. -/
def State.raiseFault (s : State) (c : Cause) : State :=
  State.silent { s with fault := true, errCode := c.code }

end Sys2Proof.Machine
end

