-- ==== Sys2Proof/Machine/Absorb.lean ====
section
/-! DEFINITION. ABSORB and FINALIZE, the commands of the Absorbing phase (41_sponge_commands.md R102, R103). -/

namespace Sys2Proof.Machine

/-- ABSORB's own effect (R102): append; on the 136th byte absorb the block and empty the buffer. -/
def State.absorbByte (s : State) (d : Byte) : State :=
  let filled := { s with buf := s.buf ++ [d] }
  State.silent
    (if filled.buf.length = rate then { filled.absorbBlock filled.buf with buf := [] } else filled)

/-- ABSORB d (R101, R102): refused while `fault` = 1; a contract violation in Squeezing. The last check
stops only on a buffer length R25 rules out. -/
def execAbsorb (d : Byte) (s : State) : Host.Outcome State Fault Refusal :=
  if s.fault then .next s.refuse
  else if s.phase ≠ .absorbing then .next (s.raiseFault .absorbInSqueezing)
  else if s.buf.length < rate then .next (s.absorbByte d)
  else .fault .bufferOverrun

/-- FINALIZE's own effect (R103): the padded block enters the sponge with exactly one permutation, and the
Squeezing phase begins. -/
def State.finish (s : State) : State :=
  State.silent
    { s.absorbBlock (padBlock s.buf) with
      buf := [], phase := .squeezing, sqCursor := 0#8, needPerm := false }

/-- FINALIZE (R101, R103): refused while `fault` = 1; a contract violation in Squeezing. The last check
stops only on a buffer length R25 rules out. -/
def execFinalize (s : State) : Host.Outcome State Fault Refusal :=
  if s.fault then .next s.refuse
  else if s.phase ≠ .absorbing then .next (s.raiseFault .finalizeInSqueezing)
  else if s.buf.length < rate then .next s.finish
  else .fault .bufferOverrun

end Sys2Proof.Machine
end

