-- ==== Sys2Proof/Machine/Session.lean ====
section
/-! DEFINITION. INIT (41_sponge_commands.md R100). -/

namespace Sys2Proof.Machine

/-- INIT's own effect (R100): a fresh session in place. `fault` and `err_code` are not written. -/
def State.newSession (s : State) : State :=
  State.silent
    { s with lanes := Lanes.zero, buf := [], phase := .absorbing, sqCursor := 0#8, needPerm := false }

/-- INIT (R100, R101): refused while `fault` = 1, else permitted in either phase. -/
def execInit (s : State) : Host.Outcome State Fault Refusal :=
  if s.fault then .next s.refuse else .next s.newSession

end Sys2Proof.Machine
end

