-- ==== Sys2Proof/Machine/Squeeze.lean ====
section
/-! DEFINITION. SQUEEZE, the command of the Squeezing phase (41_sponge_commands.md R104). -/

namespace Sys2Proof.Machine

/-- The owed permutation (R29, R104): run first, when an earlier SQUEEZE exhausted the window. -/
def State.refreshWindow (s : State) : State :=
  if s.needPerm then { s.permute with needPerm := false } else s

/-- The cursor after one byte has been delivered (R28, R29): at byte 135 it returns to 0 and a permutation is
owed, else it advances by one. -/
def State.advanceCursor (s : State) : State :=
  if s.sqCursor = 135#8 then { s with sqCursor := 0#8, needPerm := true }
  else { s with sqCursor := s.sqCursor + 1#8 }

/-- SQUEEZE's own effect (R104). -/
def State.squeezeByte (s : State) : State :=
  let fresh := s.refreshWindow
  fresh.advanceCursor.emit (sb fresh.lanes fresh.sqCursor.toNat)

/-- SQUEEZE (R101, R104): refused while `fault` = 1; a contract violation in Absorbing. The last check stops
only on a cursor value R28 rules out. -/
def execSqueeze (s : State) : Host.Outcome State Fault Refusal :=
  if s.fault then .next s.refuse
  else if s.phase ≠ .squeezing then .next (s.raiseFault .squeezeInAbsorbing)
  else if s.sqCursor.toNat < rate then .next s.squeezeByte
  else .fault .windowOverrun

end Sys2Proof.Machine
end

