-- ==== Sys2Proof/Machine/Dispatch.lean ====
section
/-! DEFINITION. One arm per command: the meaning it calls (41_sponge_commands.md R101, step 4). -/

namespace Sys2Proof.Machine

def exec (i : Instr) (s : State) : Host.Outcome State Fault Refusal :=
  match i with
  | .init => Sys2Proof.Machine.execInit s
  | .absorb d => Sys2Proof.Machine.execAbsorb d s
  | .finalize => Sys2Proof.Machine.execFinalize s
  | .squeeze => Sys2Proof.Machine.execSqueeze s

end Sys2Proof.Machine
end

