-- ==== Sys2Proof/Machine/Port.lean ====
section
/-! DEFINITION. The command port: what one transaction of the host does (30_encoding.md R61, R67;
41_sponge_commands.md R101; 60_exceptions.md R133; 70_reset_and_hazards.md R150). -/

namespace Sys2Proof.Machine

/-- An illegal word (R67, R101, R133): refused while `fault` = 1, else it raises `ILLEGAL_COMMAND`, in either
phase. -/
def illegalWord (s : State) : State :=
  if s.fault then s.refuse else s.raiseFault .illegalCommand

/-- One issued command word (R101). Each command checks the latch first and the phase after it. -/
def issue (w : CmdWord) (s : State) : Host.Outcome State Fault Refusal :=
  match decode w with
  | some i => exec i s
  | none => .next (illegalWord s)

/-- Hardware reset (R150): every state element takes its reset value and `rsp_valid` is 0. What the host has
already captured and what it has still to do are the host's, and stay. -/
def hardReset (s : State) : State :=
  { State.reset with emitted := s.emitted, pending := s.pending, tick := s.tick }

/-- One transaction (R61, R150). A word offered while `rst` = 1 is not issued; a cycle with `cmd_valid` = 0
issues nothing; a command abandoned by reset leaves no response and the reset values
(DEDUCED, unsafe, log entry 2: the host has captured no byte of it). -/
def transact (h : HostInput) (s : State) : Host.Outcome State Fault Refusal :=
  match h with
  | .cycle true _ _ => .next (hardReset s)
  | .cycle false true w => issue w s
  | .cycle false false _ => .next s.silent
  | .abandoned _ => .next (hardReset s)

/-- A cycle in which the host offers nothing. -/
def idleInput : HostInput := .cycle false false 0x0000#16

/-- The host offering a word in a cycle (R61). -/
def offerWord (w : CmdWord) : HostInput := .cycle false true w

/-- The host offering a command. -/
def offer (i : Instr) : HostInput := offerWord (encode i)

/-- The host's next input; a host with nothing more to do is idle (R142, R156; DESIGN CHOICE, safe, log
entry 13). -/
def nextInput (s : State) : HostInput := s.pending.headD idleInput

/-- The input is taken off the host's list, and the model's step counter advances. -/
def takeInput (s : State) : State := { s with pending := s.pending.tail, tick := s.tick + 1 }

end Sys2Proof.Machine
end

