-- ==== Sys2Proof/Machine/Step.lean ====
section
/-! DEFINITION. One step: the host's next input, one atomic transaction (00_scope.md R8, R13). -/

namespace Sys2Proof.Machine

/-- One transaction of the Engine with its host (R8, R52). -/
def step (s : State) : Host.Outcome State Fault Refusal := transact (nextInput s) (takeInput s)

/-- `s` with the host offering the command word of bits `w` next (R61; log entry 1). -/
def State.withFetchWord (s : State) (nbits w : Nat) : State :=
  { s with pending := offerWord (BitVec.ofNat 16 (w % 2 ^ nbits)) :: s.pending }

end Sys2Proof.Machine
end

