-- ==== Sys2Proof/Machine/Run.lean ====
section
/-! DEFINITION. Sequences of commands and of port inputs (20_memory.md R52, 70_reset_and_hazards.md R158), and
the pseudo-instructions as sequences of commands (30_encoding.md R72). -/

namespace Sys2Proof.Machine

/-- The commands of a list, each complete before the next (R52). -/
def execAll : List Instr → State → Host.Outcome State Fault Refusal
  | [], s => .next s
  | i :: rest, s =>
    match exec i s with
    | .next t => execAll rest t
    | .fault f => .fault f
    | .refused r => .refused r

/-- `k` steps, stopping at the first fault or refusal. -/
def runSteps : Nat → State → Host.Outcome State Fault Refusal
  | 0, s => .next s
  | k + 1, s =>
    match step s with
    | .next t => runSteps k t
    | .fault f => .fault f
    | .refused r => .refused r

/-- A host that offers the words of `inputs` and then nothing, to a machine otherwise as in `s`. -/
def State.withInputs (s : State) (inputs : List HostInput) : State := { s with pending := inputs }

/-- `NEW` (R72). -/
def newSession : List Instr := [.init]

/-- `UPDATE b0 .. b(n-1)` (R72). -/
def updateBytes (data : List Byte) : List Instr := data.map .absorb

/-- `FINALIZE_XOF` (R72). -/
def finalizeXof : List Instr := [.finalize]

/-- `READ n` (R72). -/
def readBytes (n : Nat) : List Instr := List.replicate n .squeeze

/-- `SHAKE256 msg, n` (R72). -/
def shakeSession (msg : List Byte) (n : Nat) : List Instr :=
  newSession ++ updateBytes msg ++ finalizeXof ++ readBytes n

end Sys2Proof.Machine
end

