-- ==== Sys2Proof/Machine/Assembler.lean ====
section
/-! DEFINITION. Assembler text (30_encoding.md R71): one command a line, the mnemonic in capitals, for ABSORB
one byte as `0x` and two hexadecimal digits, `;` starts a comment; one 16-bit word per command, in order. A
line is a list of characters. DESIGN CHOICE (unsafe, log entry 11): blanks, the case of digits. -/

namespace Sys2Proof.Machine

/-- The hexadecimal digit of a value in 0..15, as the spec's examples print it. -/
def hexDigit (n : Nat) : Char :=
  ['0', '1', '2', '3', '4', '5', '6', '7', '8', '9', 'a', 'b', 'c', 'd', 'e', 'f'].getD n '0'

/-- The value of a hexadecimal digit of R71: the one of the sixteen values that is printed as `c`, in either case. -/
def hexValue (c : Char) : Option Nat :=
  (List.range 16).find? fun n => hexDigit n == c || (hexDigit n).toUpper == c

/-- A byte operand: `0x` and two hexadecimal digits (R71). -/
def parseByte : List Char → Option Byte
  | ['0', 'x', h, l] =>
    match hexValue h, hexValue l with
    | some a, some b => some (BitVec.ofNat 8 (16 * a + b))
    | _, _ => none
  | _ => none

/-- A line's text before its comment (R71). -/
def stripComment (line : List Char) : List Char := line.takeWhile (· != ';')

/-- The words of a text, separated by blanks. -/
def tokens : List Char → List (List Char)
  | [] => []
  | c :: rest =>
    if c = ' ' then tokens rest
    else
      match rest with
      | [] => [[c]]
      | d :: _ =>
        if d = ' ' then [c] :: tokens rest
        else
          match tokens rest with
          | [] => [[c]]
          | t :: ts => (c :: t) :: ts

/-- One line (R71): no command on an empty or comment line; `none` when the line is no assembler text. -/
def parseLine (line : List Char) : Option (List Instr) :=
  match tokens (stripComment line) with
  | [] => some []
  | [m] =>
    if m = ['I', 'N', 'I', 'T'] then some [.init]
    else if m = ['F', 'I', 'N', 'A', 'L', 'I', 'Z', 'E'] then some [.finalize]
    else if m = ['S', 'Q', 'U', 'E', 'E', 'Z', 'E'] then some [.squeeze]
    else none
  | [m, d] =>
    if m = ['A', 'B', 'S', 'O', 'R', 'B'] then (parseByte d).map fun b => [.absorb b] else none
  | _ => none

/-- A command as assembler text (R71). -/
def renderLine : Instr → List Char
  | .init => ['I', 'N', 'I', 'T']
  | .absorb d =>
    ['A', 'B', 'S', 'O', 'R', 'B', ' ', '0', 'x', hexDigit (d.toNat / 16), hexDigit (d.toNat % 16)]
  | .finalize => ['F', 'I', 'N', 'A', 'L', 'I', 'Z', 'E']
  | .squeeze => ['S', 'Q', 'U', 'E', 'E', 'Z', 'E']

/-- The commands of a program's lines, in order; `none` when some line is no assembler text. -/
def parseProgram : List (List Char) → Option (List Instr)
  | [] => some []
  | line :: rest =>
    match parseLine line, parseProgram rest with
    | some i, some is => some (i ++ is)
    | _, _ => none

/-- The assembler (R71): the command words of a program's lines, in order. -/
def assemble (program : List (List Char)) : Option (List CmdWord) :=
  (parseProgram program).map fun is => is.map encode

end Sys2Proof.Machine
end

