-- ==== Sys2Proof/Machine/TableCheck.lean ====
section
/-! DEFINITION. How the two published tables are generated (40_permutation.md R96), "for checking the tables
only, not for the hardware", and the index form of pi (R86). No command uses this file. -/

namespace Sys2Proof.Machine

/-- The table `PI` of R86: `A'[i] = A[PI[i]]`. -/
def piTable : List Nat :=
  [ 0,  6, 12, 18, 24,
    3,  9, 10, 16, 22,
    1,  7, 13, 19, 20,
    4,  5, 11, 17, 23,
    2,  8, 14, 15, 21]

/-- The coordinates the walk of R96 visits: `(1,0)` first, then `(x,y) := (y, (2x+3y) mod 5)`. -/
def rotWalk : Nat → Fin 5 × Fin 5
  | 0 => (1, 0)
  | t + 1 => ((rotWalk t).2, 2 * (rotWalk t).1 + 3 * (rotWalk t).2)

/-- The offset the walk writes at its step `t` (R96). -/
def rotWalkOffset (t : Nat) : Nat := (t + 1) * (t + 2) / 2 % 64

/-- One step of the 8-bit shift register of polynomial `x^8 + x^6 + x^5 + x^4 + 1` (R96).

DEDUCED (safe, log entry 9): the register shifts toward its more significant bits, the bit shifted out is fed
back at `x^6`, `x^5`, `x^4` and `1`, and its output bit is bit 0; R96 names the polynomial and the start value,
and this reading is the one that regenerates the table, as R96 says it does. -/
def lfsrStep (r : Byte) : Byte := (r <<< 1) ^^^ (if r.getLsbD 7 then 0x71#8 else 0x00#8)

/-- `rc(t)`: the register's output bit after `t mod 255` steps from `0x01` (R96). -/
def lfsrBit (t : Nat) : Bool := ((List.range (t % 255)).foldl (fun r _ => lfsrStep r) 0x01#8).getLsbD 0

/-- `RC[i]` as R96 generates it: bit `2^j - 1` is `rc(j + 7i)` for `j` = 0..6, every other bit is 0. -/
def rcGenerated (i : Nat) : Lane :=
  (List.range 7).foldl
    (fun v j => if lfsrBit (j + 7 * i) then v ||| (1#64 <<< (2 ^ j - 1)) else v) 0#64

end Sys2Proof.Machine
end

