-- ==== Sys2Proof/Machine/Sponge.lean ====
section
/-! DEFINITION. What a session computes, as a function of its bytes alone (41_sponge_commands.md R106, R107,
R109): the padded message, the sponge over its blocks, the output stream. No command uses this file; the
statements compare the machine with it. -/

namespace Sys2Proof.Machine

/-- Block `j` of a byte string (R109). -/
def blockAt (P : List Byte) (j : Nat) : List Byte := (P.drop (rate * j)).take rate

/-- `P` = `M` followed by the padding of its last partial block (R105, R109). -/
def paddedMessage (M : List Byte) : List Byte :=
  M.take (rate * (M.length / rate)) ++ padBlock (M.drop (rate * (M.length / rate)))

/-- The array after the first `j` blocks of `P` have entered an all-zero sponge (R109: `S_(j-1)`). -/
def spongeAfter (P : List Byte) : Nat → Lanes
  | 0 => Lanes.zero
  | j + 1 => keccakF (xorBlock (spongeAfter P j) (blockAt P j))

/-- The array after FINALIZE, `S_k` with `k = L div 136` (R109). -/
def finalArray (M : List Byte) : Lanes := spongeAfter (paddedMessage M) (M.length / rate + 1)

/-- Byte `t` of the output stream that starts at byte 0 of the window `S` (R109). -/
def streamByte (S : Lanes) (t : Nat) : Byte := sb (keccakF^[t / rate] S) (t % rate)

/-- The first `n` output bytes for the message `M` (R109): SHAKE256. -/
def shake256 (M : List Byte) (n : Nat) : List Byte := (List.range n).map (streamByte (finalArray M))

/-- The source's `update(data)` on the array and the buffer (R106): append all of `data`; every full block, in
order, is XORed in and permuted; the rest stays buffered. -/
def sliceUpdate (A : Lanes) (buf data : List Byte) : Lanes × List Byte :=
  let all := buf ++ data
  ((List.range (all.length / rate)).foldl (fun B j => keccakF (xorBlock B (blockAt all j))) A,
    all.drop (rate * (all.length / rate)))

end Sys2Proof.Machine
end

