-- ==== Sys2Proof/Machine/Timing.lean ====
section
/-! DEFINITION. How often a command permutes, and how long it takes over the two open parameters
(41_sponge_commands.md R113, 70_reset_and_hazards.md R159, R160). The counts are the observer's, not state. -/

namespace Sys2Proof.Machine

/-- How many times a command runs `PERMUTE()` from a state (R102, R103, R104, R113): 0 or 1. -/
def permutations (i : Instr) (s : State) : Nat :=
  match i with
  | .init => 0
  | .absorb _ =>
    if !s.fault ∧ s.phase = .absorbing ∧ s.buf.length + 1 = rate then 1 else 0
  | .finalize => if !s.fault ∧ s.phase = .absorbing then 1 else 0
  | .squeeze => if !s.fault ∧ s.phase = .squeezing ∧ s.needPerm then 1 else 0

/-- How many times a list of commands runs `PERMUTE()`. -/
def permutationsAll : List Instr → State → Nat
  | [], _ => 0
  | i :: rest, s =>
    permutations i s +
      match exec i s with
      | .next t => permutationsAll rest t
      | .fault _ => 0
      | .refused _ => 0

/-- The clock cycles a command takes (R159, log entry 8). -/
def commandCycles (i : Instr) (s : State) : Nat :=
  Config.cmdCycles + permutations i s * Config.permCycles

end Sys2Proof.Machine
end

