-- ==== Sys2Proof/WellFormed.lean ====
section
/-! DEFINITION. Well-formed command programs: the compile-time form of the phase rules
(60_exceptions.md R139, 41_sponge_commands.md R101, R108).

A single `Instr` is well formed by its type: its only field is a byte, and every byte is a valid
operand of ABSORB (R66). What can be ill formed is an order of commands. -/

namespace Sys2Proof

/-- The phase-legal command sequences, from a state whose phase is Squeezing exactly when `squeezing`.

DEDUCED (safe, log entry 10): R139 writes the type as `INIT`? `ABSORB`* `FINALIZE` `SQUEEZE`*, repeated, "on which no
fault can occur"; read with the table of R108, a repetition that starts in Squeezing needs its INIT, and an
unfinished session faults nowhere, so it is accepted too. -/
def Program.wf : Bool → List Instr → Bool
  | _, [] => true
  | _, .init :: rest => Program.wf false rest
  | false, .absorb _ :: rest => Program.wf false rest
  | false, .finalize :: rest => Program.wf true rest
  | true, .squeeze :: rest => Program.wf true rest
  | true, .absorb _ :: _ => false
  | true, .finalize :: _ => false
  | false, .squeeze :: _ => false

end Sys2Proof
end

