-- ==== Sys2Proof/Safety.lean ====
section
/-! DEFINITION. What holds between commands (10_state.md R32), what a good run is (60_exceptions.md R138), and
the terms the statements use. -/

namespace Sys2Proof.Machine

/-- The invariants between commands (R32, with R25, R28 and R31). -/
structure State.Inv (s : State) : Prop where
  /-- `0 ≤ buf_len ≤ 135`. -/
  bufShort : s.buf.length ≤ 135
  /-- `0 ≤ sq_cursor ≤ 135`. -/
  cursorShort : s.sqCursor.toNat ≤ 135
  /-- Absorbing: the cursor is 0 and no permutation is owed. -/
  absorbing : s.phase = .absorbing → s.sqCursor = 0#8 ∧ s.needPerm = false
  /-- Squeezing: the buffer is empty. -/
  squeezing : s.phase = .squeezing → s.buf = []
  /-- A permutation is owed only in Squeezing, with the cursor at 0. -/
  owed : s.needPerm = true → s.phase = .squeezing ∧ s.sqCursor = 0#8
  /-- `fault = 0` exactly when `err_code = 0`. -/
  latch : s.fault = false ↔ s.errCode = 0#3
  /-- Codes 5, 6 and 7 are never written (R131). -/
  codeUsed : s.errCode.toNat ≤ 4

/-- A state a good run may end in (R138, R158). -/
def State.Good (s : State) : Prop := s.fault = false

/-- The eight architectural elements of two states agree (R20 to R31); the model's own port fields may
differ. -/
structure State.SameEngine (s t : State) : Prop where
  lanes : t.lanes = s.lanes
  buf : t.buf = s.buf
  phase : t.phase = s.phase
  sqCursor : t.sqCursor = s.sqCursor
  needPerm : t.needPerm = s.needPerm
  fault : t.fault = s.fault
  errCode : t.errCode = s.errCode

/-- The host's and the observer's fields that no command touches. -/
structure State.SameHost (s t : State) : Prop where
  pending : t.pending = s.pending
  tick : t.tick = s.tick

/-- The control elements of two states agree: everything but the values of lanes and buffered bytes. -/
structure State.SameControl (s t : State) : Prop where
  bufLength : t.buf.length = s.buf.length
  phase : t.phase = s.phase
  sqCursor : t.sqCursor = s.sqCursor
  needPerm : t.needPerm = s.needPerm
  fault : t.fault = s.fault
  errCode : t.errCode = s.errCode

/-- The phases a command is permitted in (R101, R108). -/
def permitted (i : Instr) (p : Phase) : Prop :=
  match i with
  | .init => True
  | .absorb _ => p = .absorbing
  | .finalize => p = .absorbing
  | .squeeze => p = .squeezing

/-- The cause of a command issued in a phase that forbids it (R131, R132). -/
def violation (i : Instr) : Option Cause :=
  match i with
  | .init => none
  | .absorb _ => some .absorbInSqueezing
  | .finalize => some .finalizeInSqueezing
  | .squeeze => some .squeezeInAbsorbing

/-- What a command does when it is permitted (step 4 of R101): its own pseudocode. -/
def performed (i : Instr) (s : State) : State :=
  match i with
  | .init => s.newSession
  | .absorb d => s.absorbByte d
  | .finalize => s.finish
  | .squeeze => s.squeezeByte

/-- Two commands with the same opcode: equal but for the data byte of ABSORB. -/
def sameOpcode : Instr → Instr → Prop
  | .init, .init => True
  | .absorb _, .absorb _ => True
  | .finalize, .finalize => True
  | .squeeze, .squeeze => True
  | .init, .absorb _ => False
  | .init, .finalize => False
  | .init, .squeeze => False
  | .absorb _, .init => False
  | .absorb _, .finalize => False
  | .absorb _, .squeeze => False
  | .finalize, .init => False
  | .finalize, .absorb _ => False
  | .finalize, .squeeze => False
  | .squeeze, .init => False
  | .squeeze, .absorb _ => False
  | .squeeze, .finalize => False

/-- An input is a cycle in which `rst` = 0: no reset, no abandoned command. -/
def HostInput.noReset : HostInput → Bool
  | .cycle rst _ _ => !rst
  | .abandoned _ => false

/-- An input is an idle cycle (R61). -/
def HostInput.isIdle : HostInput → Bool
  | .cycle false false _ => true
  | .cycle false true _ => false
  | .cycle true _ _ => false
  | .abandoned _ => false

/-- The state an outcome leaves, if it is a next state. -/
def nextOf : Host.Outcome State Fault Refusal → Option State
  | .next t => some t
  | .fault _ => none
  | .refused _ => none

end Sys2Proof.Machine
end

