-- ==== Sys2Proof/Certificates/Slice0/Obligations.lean ====
section
/-! DEFINITION. The statements about the Engine, for the provers. Each docstring names the rule it
formalises. -/

open Sys2Proof Sys2Proof.Machine

/-! ## Command words -/

/-- R68: the decoder of `op` and `d` fields is the chain of mask tests the rule prints. -/
def Obligations.DecodeTestsTheMaskedPatterns : Prop :=
  ∀ w : CmdWord,
    decode w =
      if w &&& 0xFFFF#16 = 0x0100#16 then some .init
      else if w &&& 0xFF00#16 = 0x0200#16 then some (.absorb (w.extractLsb' 0 8))
      else if w &&& 0xFFFF#16 = 0x0300#16 then some .finalize
      else if w &&& 0xFFFF#16 = 0x0400#16 then some .squeeze
      else none

/-- R65: a word selects a command exactly when `w & mask = match` for its row, and the four patterns are
disjoint. -/
def Obligations.OpcodePatternsAreDisjoint : Prop :=
  (∀ d, rowMatch .init = 0x0100#16 ∧ rowMask .init = 0xFFFF#16 ∧
    rowMatch (.absorb d) = 0x0200#16 ∧ rowMask (.absorb d) = 0xFF00#16 ∧
    rowMatch .finalize = 0x0300#16 ∧ rowMask .finalize = 0xFFFF#16 ∧
    rowMatch .squeeze = 0x0400#16 ∧ rowMask .squeeze = 0xFFFF#16) ∧
  (∀ (w : CmdWord) (i : Instr),
    w &&& rowMask i = rowMatch i ↔ ∃ j, sameOpcode i j ∧ decode w = some j) ∧
  (∀ (w : CmdWord) (i j : Instr),
    w &&& rowMask i = rowMatch i → w &&& rowMask j = rowMatch j → sameOpcode i j)

/-- R65, R66, R68: decoding and encoding are inverse, in both directions, for every operand byte; and the
host's numbering of a word's bits reads the same command. -/
def Obligations.DecodeAndEncodeAreInverse : Prop :=
  (∀ i, decode (encode i) = some i) ∧
  (∀ w i, decode w = some i → encode i = w) ∧
  (∀ i, decodeTableWord 16 (encode i).toNat = some i)

/-- R67: which words are illegal, how many, and what one does when it is issued while `fault` = 0. -/
def Obligations.IllegalWordsFault : Prop :=
  (∀ w : CmdWord, decode w = none ↔
    (opField w = 0x00#8 ∨ 0x05 ≤ (opField w).toNat) ∨
    ((opField w = 0x01#8 ∨ opField w = 0x03#8 ∨ opField w = 0x04#8) ∧ dField w ≠ 0x00#8)) ∧
  ((List.range 65536).countP fun n => decode (BitVec.ofNat 16 n) = none) = 65277 ∧
  decode 0x0000#16 = none ∧
  (∀ (w : CmdWord) (s : State), decode w = none → s.fault = false →
    issue w s = .next { s with fault := true, errCode := 4#3, rsp := none })

/-- R65, R71: words written out bit by bit from the opcode map, and the four words of the assembler example. -/
def Obligations.SampleWordsDecode : Prop :=
  decode 0b0000000100000000#16 = some .init ∧
  decode 0b0000001001100001#16 = some (.absorb 0x61#8) ∧
  decode 0b0000001010000000#16 = some (.absorb 0x80#8) ∧
  decode 0b0000001100000000#16 = some .finalize ∧
  decode 0b0000010000000000#16 = some .squeeze ∧
  encode .init = 0x0100#16 ∧ encode (.absorb 0x61#8) = 0x0261#16 ∧
  encode .finalize = 0x0300#16 ∧ encode .squeeze = 0x0400#16

/-- R71: the assembler emits one word per command, in order; a comment is no part of its line. What counts as a
blank, and the case of the digits printed, are the model's choice (log entry 11). -/
def Obligations.AssemblerRoundTrip : Prop :=
  (∀ program : List Instr, assemble (program.map renderLine) = some (program.map encode)) ∧
  (∀ line comment : List Char, parseLine (line ++ ';' :: comment) = parseLine line) ∧
  (∀ line comment : List Char, (∀ c ∈ line, c = ' ') → parseLine (line ++ ';' :: comment) = some [])

/-! ## The port and the step -/

/-- R61: a step with a word offered, `rst` = 0, whose word decodes to `i`, is `exec i` on the state with that
input taken off the host's list and the model's step counter advanced (the list and the counter are the model's
own: log entries 1 and 5). -/
def Obligations.StepRunsTheIssuedCommand : Prop :=
  ∀ (s : State) (w : CmdWord) (i : Instr) (rest : List HostInput),
    s.pending = .cycle false true w :: rest → decode w = some i →
      step s = exec i { s with pending := rest, tick := s.tick + 1 }

/-- R101: the checks on an issued word, in their order: the latch, decoding, the phase; then the command's own
pseudocode. -/
def Obligations.ChecksAreMadeInOrder : Prop :=
  ∀ (w : CmdWord) (s : State),
    (s.fault = true → issue w s = .next { s with rsp := none }) ∧
    (s.fault = false → decode w = none →
      issue w s = .next { s with fault := true, errCode := Cause.illegalCommand.code, rsp := none }) ∧
    (∀ i, s.fault = false → decode w = some i → ¬permitted i s.phase →
      ∃ c, violation i = some c ∧
        issue w s = .next { s with fault := true, errCode := c.code, rsp := none }) ∧
    (∀ i, s.fault = false → decode w = some i → permitted i s.phase → s.Inv →
      issue w s = .next (performed i s) ∧ (performed i s).fault = false) ∧
    (∀ d, permitted .init .absorbing ∧ permitted .init .squeezing ∧
      permitted (.absorb d) .absorbing ∧ ¬permitted (.absorb d) .squeezing ∧
      permitted .finalize .absorbing ∧ ¬permitted .finalize .squeezing ∧
      ¬permitted .squeeze .absorbing ∧ permitted .squeeze .squeezing)

/-- R61: a cycle with `rst` = 0 and `cmd_valid` = 0 issues nothing and changes no architectural state; nor
does a cycle in which the host's list is empty, which the model takes as an idle host (log entry 13). Only the
response of the cycle before goes away (R63). -/
def Obligations.IdleCycleChangesNothing : Prop :=
  (∀ (s : State) (w : CmdWord) (rest : List HostInput), s.pending = .cycle false false w :: rest →
    step s = .next { s with pending := rest, tick := s.tick + 1, rsp := none }) ∧
  (∀ s : State, s.pending = [] → step s = .next { s with tick := s.tick + 1, rsp := none })

/-- R112, with R61 and R156: the input in pieces is the input in one piece, and idle cycles between commands,
wherever they stand and however many, change neither the state nor the output stream. -/
def Obligations.ChunksAndIdleCyclesAreInvisible : Prop :=
  (∀ pieces : List (List Byte), pieces.flatMap updateBytes = updateBytes pieces.flatten) ∧
  (∀ (s : State) (a b : List HostInput), s.Inv →
    a.filter (fun h => !h.isIdle) = b.filter (fun h => !h.isIdle) →
      ∃ t u, runSteps a.length (s.withInputs a) = .next t ∧
        runSteps b.length (s.withInputs b) = .next u ∧
        State.SameEngine t u ∧ u.emitted = t.emitted)

/-- R52: steps over the words of a list of commands do what the commands do one after another. -/
def Obligations.StepsRunTheCommandStreamInOrder : Prop :=
  ∀ (program : List Instr) (s t : State), execAll program s = .next t →
    ∃ u, runSteps program.length (s.withInputs (program.map offer)) = .next u ∧
      State.SameEngine t u ∧ u.emitted = t.emitted ∧ u.rsp = t.rsp ∧ u.pending = []

/-- R150: what a cycle with `rst` = 1 leaves, and what a command abandoned by reset leaves: every state element
at its reset value, `rsp_valid` = 0, `cmd_ready` = 1; no word is issued. `State.reset` has the same values. -/
def Obligations.HardwareResetGivesResetValues : Prop :=
  (∀ (s : State) (h : HostInput) (rest : List HostInput), s.pending = h :: rest →
    ((∃ v w, h = .cycle true v w) ∨ ∃ w, h = .abandoned w) →
      ∃ t, step s = .next t ∧ (∀ i, i < laneCount → t.lanes.lane i = 0#64) ∧ t.buf = [] ∧
        t.bufLen = 0#8 ∧ t.phase = .absorbing ∧ t.stPhase = 0#1 ∧ t.sqCursor = 0#8 ∧
        t.needPerm = false ∧ t.fault = false ∧ t.errCode = 0#3 ∧ t.cmdReady = true ∧
        t.rspValid = false) ∧
  (∀ i, i < laneCount → State.reset.lanes.lane i = 0#64) ∧ State.reset.buf = [] ∧
    State.reset.bufLen = 0#8 ∧ State.reset.phase = .absorbing ∧ State.reset.stPhase = 0#1 ∧
    State.reset.sqCursor = 0#8 ∧ State.reset.needPerm = false ∧ State.reset.fault = false ∧
    State.reset.errCode = 0#3 ∧ State.reset.cmdReady = true ∧ State.reset.rspValid = false

/-- R151: reset and INIT give the same values to six elements, and differ in two ways only. -/
def Obligations.InitAndResetAgree : Prop :=
  ∀ s : State,
    (s.fault = false →
      ∃ t, exec .init s = .next t ∧ t.lanes = (hardReset s).lanes ∧ t.buf = (hardReset s).buf ∧
        t.bufLen = (hardReset s).bufLen ∧ t.phase = (hardReset s).phase ∧
        t.sqCursor = (hardReset s).sqCursor ∧ t.needPerm = (hardReset s).needPerm ∧
        t.fault = s.fault ∧ t.errCode = s.errCode) ∧
    (s.fault = true → exec .init s = .next { s with rsp := none }) ∧
    (hardReset s).fault = false ∧ (hardReset s).errCode = 0#3

/-- R63: a response is the mark of a SQUEEZE that completes without fault: it presents one byte and puts that
byte, and nothing else, on the output stream; no other command, and no refused or faulting one, does; nor does a
reset cycle or a command abandoned by reset (that the stream the host has captured stays is the model's reading:
log entries 2 and 4). -/
def Obligations.OnlyCompletedSqueezeResponds : Prop :=
  (∀ (i : Instr) (s t : State), exec i s = .next t →
    (t.rspValid = true ↔ i = .squeeze ∧ s.fault = false ∧ s.phase = .squeezing) ∧
    (∀ b, t.rsp = some b → t.rspData = b ∧ t.emitted = s.emitted ++ [b]) ∧
    (t.rsp = none → t.emitted = s.emitted)) ∧
  (∀ s t : State, step s = .next t → (nextInput s).noReset = false →
    t.rspValid = false ∧ t.emitted = s.emitted)

/-- R158, R159: in the legal states of R32 the Engine never halts: every transaction completes. -/
def Obligations.EveryStepCompletes : Prop :=
  ∀ s : State, s.Inv → ∃ t, step s = .next t

/-! ## The byte view -/

/-- R41: lanes are packed into bytes little-endian, in both directions. (The spec derives the formula from R20 and
R11.) -/
def Obligations.StateBytesAreLittleEndian : Prop :=
  ∀ A : Lanes,
    (∀ k, k < 200 → ∀ z, z < 8 → (sb A k).getLsbD z = (A.lane (k / 8)).getLsbD (8 * (k % 8) + z)) ∧
    (∀ i, i < laneCount → A.lane i = laneOfBytes (sb A) i) ∧
    sb A 0 = (A.at 0 0).extractLsb' 0 8 ∧ sb A 7 = (A.at 0 0).extractLsb' 56 8 ∧
    sb A 8 = (A.at 1 0).extractLsb' 0 8 ∧ sb A 135 = (A.at 1 3).extractLsb' 56 8 ∧
    (A.lane 0 = 0x0807060504030201#64 → sb A 0 = 0x01#8 ∧ sb A 1 = 0x02#8 ∧ sb A 7 = 0x08#8)

/-- R42: `SBXOR(k, b)` XORs `b` into state byte `k` and changes no other bit; the shift loses none. (The spec
derives it from R41.) -/
def Obligations.SbxorChangesOneByte : Prop :=
  ∀ (A : Lanes) (k : Nat) (b : Byte), k < 200 →
    (∀ j, j < 200 → sb (sbXor A k b) j = if j = k then sb A k ^^^ b else sb A j) ∧
    (∀ i, i < laneCount → (sbXor A k b).lane i =
      if i = k / 8 then A.lane i ^^^ (b.setWidth 64 <<< (8 * (k % 8))) else A.lane i) ∧
    (b.setWidth 64 <<< (8 * (k % 8))) >>> (8 * (k % 8)) = b.setWidth 64 ∧
    (sbXor A 0 0x1F#8).lane 0 = A.lane 0 ^^^ 0x000000000000001F#64 ∧
    (sbXor A 135 0x80#8).lane 16 = A.lane 16 ^^^ 0x8000000000000000#64

/-- R43: `XORBLOCK` lane by lane; lanes 17 to 24 are not changed; the order of the byte operations does not
matter. -/
def Obligations.XorblockIsLanewise : Prop :=
  ∀ (A : Lanes) (blk : List Byte), blk.length = rate →
    (∀ j, j < rate → sb (xorBlock A blk) j = sb A j ^^^ blk.getD j 0#8) ∧
    (∀ i, i < rateLanes →
      (xorBlock A blk).lane i = A.lane i ^^^ laneOfBytes (fun j => blk.getD j 0#8) i) ∧
    (∀ i, rateLanes ≤ i → i < laneCount → (xorBlock A blk).lane i = A.lane i) ∧
    (∀ order : List Nat, order.Perm (List.range rate) →
      order.foldl (fun B j => sbXor B j (blk.getD j 0#8)) A = xorBlock A blk)

/-- R44 with R41: bit `z` of lane `i` is the bit at position `64 i + z` of the state string, least significant
bit of each byte first; and the two padding bytes in that order. -/
def Obligations.BitsAreLeastSignificantFirst : Prop :=
  (∀ (A : Lanes) (i z : Nat), i < laneCount → z < 64 →
    (A.lane i).getLsbD z = (sb A ((64 * i + z) / 8)).getLsbD ((64 * i + z) % 8)) ∧
  (∀ j, j < 8 → (ds.getLsbD j = true ↔ j < 5)) ∧ (∀ j, j < 8 → (padEnd.getLsbD j = true ↔ j = 7)) ∧
  ds ||| padEnd = dsEnd

/-! ## The Permutation Core -/

/-- R80: `ROTL64` moves bit `z` to bit `(z + n) mod 64`. -/
def Obligations.RotationMovesBitsUp : Prop :=
  (∀ (v : Lane) (n z : Nat), n ≤ 63 → z < 64 →
    (rotl64 v n).getLsbD ((z + n) % 64) = v.getLsbD z) ∧
  (∀ v : Lane, rotl64 v 0 = v) ∧
  (∀ (v : Lane) (n : Nat), 1 ≤ n → n ≤ 63 → rotl64 v n = (v <<< n) ||| (v >>> (64 - n))) ∧
  (∀ x y, rot x y ≤ 62) ∧
  rotl64 0x8000000000000001#64 1 = 0x0000000000000003#64

/-- R96: the walk and the shift register regenerate the two tables; with the check values of R84 and R90. How the
register shifts is the model's reading (log entry 9). -/
def Obligations.TablesAreRegenerated : Prop :=
  (rot 0 0 = 0 ∧ ∀ t, t < 24 → rot (rotWalk t).1 (rotWalk t).2 = rotWalkOffset t) ∧
  (∀ x y : Fin 5, x = 0 ∧ y = 0 ∨ ∃ t, t < 24 ∧ rotWalk t = (x, y)) ∧
  (∀ i, i < 24 → rc i = rcGenerated i) ∧
  (rotTable.length = 25 ∧ rotTable.Nodup ∧ rotTable.sum = 680 ∧
    (∀ x y, rot x y = 0 ↔ x = 0 ∧ y = 0) ∧ ∀ x y, rot x y ≤ 62) ∧
  (rcTable.length = 24 ∧ rcTable.foldl (· ^^^ ·) 0#64 = 0x800000000000800A#64 ∧
    rcTable.foldl (· ||| ·) 0#64 = 0x800000008000808B#64 ∧ rc 5 = rc 22 ∧ rc 6 = rc 20)

/-- R86: pi in its three forms, as where each lane goes, as what each place reads, and by the table `PI`, which
is a bijection of the 25 positions. -/
def Obligations.PiRelabelsTheLanes : Prop :=
  (∀ (A : Lanes) (x y : Fin 5), (pi A).at y (2 * x + 3 * y) = A.at x y) ∧
  (∀ (A : Lanes) (x y : Fin 5), (pi A).at x y = A.at (x + 3 * y) x) ∧
  (∀ (A : Lanes) (i : Nat), i < laneCount → (pi A).lane i = A.lane (piTable.getD i 0)) ∧
  piTable.Perm (List.range laneCount) ∧
  (∀ A : Lanes, (pi A).at 0 0 = A.at 0 0 ∧ (pi A).at 1 0 = A.at 1 1 ∧ (pi A).at 0 1 = A.at 3 0)

/-- R89: rho and then pi is the one-step array `B`, and chi then reads `B`. (The spec derives it from R85 and R86.) -/
def Obligations.RhoThenPiInOneStep : Prop :=
  ∀ A B : Lanes, (∀ x y : Fin 5, B.at y (2 * x + 3 * y) = rotl64 (A.at x y) (rot x y)) →
    pi (rho A) = B ∧ chi (pi (rho A)) = chi B

/-- R97: chi, iota and pi act on each bit position on its own; theta reads, beside it, only the position below
(its one-bit rotation). -/
def Obligations.SlicesAreIndependent : Prop :=
  ∀ (A B : Lanes) (z : Nat), z < 64 →
    (∀ x y, (A.at x y).getLsbD z = (B.at x y).getLsbD z) →
      (∀ x y, ((chi A).at x y).getLsbD z = ((chi B).at x y).getLsbD z) ∧
      (∀ x y, ((pi A).at x y).getLsbD z = ((pi B).at x y).getLsbD z) ∧
      (∀ i x y, ((iota A i).at x y).getLsbD z = ((iota B i).at x y).getLsbD z) ∧
      ((∀ x y, (A.at x y).getLsbD ((z + 63) % 64) = (B.at x y).getLsbD ((z + 63) % 64)) →
        ∀ x y, ((theta A).at x y).getLsbD z = ((theta B).at x y).getLsbD z)

/-- R83, R87, R91, the corner cases: theta changes no array whose columns all have even parity; the step mappings
on the uniform arrays; the first round from the all-zero array. -/
def Obligations.StepMappingCornerCases : Prop :=
  (∀ A : Lanes, (∀ x, columnParity A x = 0#64) → theta A = A) ∧
  theta Lanes.zero = Lanes.zero ∧ rho Lanes.zero = Lanes.zero ∧ pi Lanes.zero = Lanes.zero ∧
  chi Lanes.zero = Lanes.zero ∧
  chi (Lanes.build fun _ _ => BitVec.allOnes 64) = Lanes.build (fun _ _ => BitVec.allOnes 64) ∧
  rnd Lanes.zero 0 = Lanes.zero.setLane 0 1#64

/-- R93, for one of its two hard steps: theta is invertible. -/
def Obligations.ThetaIsInvertible : Prop := Function.Bijective theta

/-- R93, for the other: chi is invertible. -/
def Obligations.ChiIsInvertible : Prop := Function.Bijective chi

/-- R93: `KeccakF` is a permutation of the set of 1600-bit values. (A round is a composition, and theta's
192nd iterate is the identity: its map of column parities, squared six times, loses its rotation.) -/
def Obligations.KeccakfIsAPermutation : Prop := Function.Bijective keccakF

/-- R92: 24 rounds, round `i` with `RC[i]`, round 0 first; and `PERMUTE()` writes no element but `A`. -/
def Obligations.PermuteRunsTwentyFourRounds : Prop :=
  (∀ A : Lanes, ∃ S : Nat → Lanes, S 0 = A ∧ S 24 = keccakF A ∧
    ∀ i, i < 24 → S (i + 1) = iota (chi (pi (rho (theta (S i))))) i) ∧
  (∀ s : State, s.permute.lanes = keccakF s.lanes ∧ s.permute.buf = s.buf ∧ s.permute.phase = s.phase ∧
    s.permute.sqCursor = s.sqCursor ∧ s.permute.needPerm = s.needPerm ∧ s.permute.fault = s.fault ∧
    s.permute.errCode = s.errCode) ∧
  (keccakF Lanes.zero).at 0 0 = 0xF1258F7940E1DDE7#64

/-! ## The commands -/

/-- R100: INIT. -/
def Obligations.InitStartsAFreshSession : Prop :=
  decode 0x0100#16 = some .init ∧
  (∀ s : State, s.fault = false →
    exec .init s = .next { s with
      lanes := Lanes.zero, buf := [], phase := .absorbing, sqCursor := 0#8, needPerm := false,
      rsp := none }) ∧
  (∀ s : State, s.fault = true → exec .init s = .next { s with rsp := none }) ∧
  exec .init State.reset = .next State.reset ∧
  (∀ (i : Instr) (s t : State), exec i s = .next t → s.phase = .squeezing → t.phase = .absorbing →
    i = .init) ∧
  (∀ s : State, s.fault = false →
    ∃ t, execAll (.init :: .finalize :: readBytes 64) s = .next t ∧
      t.emitted = s.emitted ++ shake256 [] 64)

/-- R102: ABSORB, on a buffer that stays short and on one that becomes full. -/
def Obligations.AbsorbBuffersOrAbsorbsTheBlock : Prop :=
  (∀ d : Byte, decode (0x02#8 ++ d) = some (.absorb d)) ∧
  (∀ (d : Byte) (s : State), s.fault = false → s.phase = .absorbing → s.buf.length ≤ 134 →
    exec (.absorb d) s = .next { s with buf := s.buf ++ [d], rsp := none }) ∧
  (∀ (d : Byte) (s : State), s.fault = false → s.phase = .absorbing → s.buf.length = 135 →
    exec (.absorb d) s = .next { s with
      lanes := keccakF (xorBlock s.lanes (s.buf ++ [d])), buf := [], rsp := none }) ∧
  (∀ (d : Byte) (s : State), s.fault = false → s.phase = .squeezing →
    exec (.absorb d) s = .next { s with
      fault := true, errCode := Cause.absorbInSqueezing.code, rsp := none }) ∧
  (∀ (d : Byte) (s : State), s.fault = true → exec (.absorb d) s = .next { s with rsp := none }) ∧
  exec (.absorb 0x61#8) State.reset = .next { State.reset with buf := [0x61#8] }

/-- R105: the padding block byte by byte and bit by bit. -/
def Obligations.PadblockBytes : Prop :=
  ∀ buf : List Byte, buf.length ≤ 135 →
    (padBlock buf).length = rate ∧
    (∀ j, j < buf.length → (padBlock buf).getD j 0#8 = buf.getD j 0#8) ∧
    (buf.length ≤ 134 → (padBlock buf).getD buf.length 0#8 = 0x1F#8 ∧
      (∀ j, buf.length < j → j < 135 → (padBlock buf).getD j 0#8 = 0x00#8) ∧
      (padBlock buf).getD 135 0#8 = 0x80#8) ∧
    (buf.length = 135 → (padBlock buf).getD 135 0#8 = 0x9F#8) ∧
    (∀ m, m < 1088 → ((padBlock buf).getD (m / 8) 0#8).getLsbD (m % 8) =
      if m < 8 * buf.length then (buf.getD (m / 8) 0#8).getLsbD (m % 8)
      else decide (m < 8 * buf.length + 5 ∨ m = 1087))

/-- R103: FINALIZE runs exactly one permutation, inside the command, and opens the Squeezing phase. -/
def Obligations.FinalizePadsAndPermutesOnce : Prop :=
  decode 0x0300#16 = some .finalize ∧
  (∀ s : State, s.fault = false → s.phase = .absorbing → s.buf.length ≤ 135 →
    permutations .finalize s = 1 ∧
    exec .finalize s = .next { s with
      lanes := keccakF (xorBlock s.lanes (padBlock s.buf)), buf := [], phase := .squeezing,
      sqCursor := 0#8, needPerm := false, rsp := none }) ∧
  (∀ s : State, s.fault = false → s.phase = .squeezing →
    exec .finalize s = .next { s with
      fault := true, errCode := Cause.finalizeInSqueezing.code, rsp := none }) ∧
  padBlock [] = 0x1F#8 :: (List.replicate 134 0x00#8 ++ [0x80#8]) ∧
  (∀ buf : List Byte, buf.length = 135 → padBlock buf = buf ++ [0x9F#8]) ∧
  (∀ s : State, s.fault = true → exec .finalize s = .next { s with rsp := none }) ∧
  (∀ i, i < laneCount → (xorBlock Lanes.zero (padBlock [])).lane i =
    if i = 0 then 0x000000000000001F#64 else if i = 16 then 0x8000000000000000#64 else 0#64) ∧
  (∃ t, exec .finalize State.reset = .next t ∧ t.lanes.lane 0 = 0x138DA80B2BDDB946#64)

/-- R104: SQUEEZE permutes first when a permutation is owed, presents the window byte at the cursor, and moves
the cursor on, or at byte 135 back to 0 with a permutation owed. -/
def Obligations.SqueezeDeliversTheNextByte : Prop :=
  decode 0x0400#16 = some .squeeze ∧
  (∀ (s : State) (A : Lanes), s.fault = false → s.phase = .squeezing → s.sqCursor.toNat ≤ 135 →
    A = (if s.needPerm then keccakF s.lanes else s.lanes) →
      exec .squeeze s = .next { s with
        lanes := A
        sqCursor := if s.sqCursor = 135#8 then 0#8 else s.sqCursor + 1#8
        needPerm := decide (s.sqCursor = 135#8)
        rsp := some (sb A s.sqCursor.toNat)
        emitted := s.emitted ++ [sb A s.sqCursor.toNat] }) ∧
  (∀ s : State, s.fault = false → s.phase = .absorbing →
    exec .squeeze s = .next { s with
      fault := true, errCode := Cause.squeezeInAbsorbing.code, rsp := none }) ∧
  (∀ s : State, s.fault = true → exec .squeeze s = .next { s with rsp := none }) ∧
  (∀ s : State, s.fault = false →
    ∃ t, execAll [.init, .finalize, .squeeze] s = .next t ∧ t.rsp = some 0x46#8 ∧
      t.emitted = s.emitted ++ [0x46#8] ∧ t.sqCursor = 1#8 ∧ t.needPerm = false)

/-- R29: what sets `need_perm` and what clears it. -/
def Obligations.NeedPermIsSetAndCleared : Prop :=
  (∀ (i : Instr) (s t : State), s.Inv → exec i s = .next t → s.needPerm = false → t.needPerm = true →
    i = .squeeze ∧ s.sqCursor = 135#8 ∧ t.sqCursor = 0#8 ∧ t.lanes = s.lanes) ∧
  (∀ s : State, s.Inv → s.fault = false → s.phase = .squeezing → s.sqCursor = 135#8 →
    ∃ t, exec .squeeze s = .next t ∧ t.needPerm = true) ∧
  (∀ s : State, s.Inv → s.fault = false → s.needPerm = true →
    ∃ t, exec .squeeze s = .next t ∧ t.needPerm = false ∧ t.lanes = keccakF s.lanes ∧
      t.rsp = some (sb t.lanes 0)) ∧
  (∀ s : State, s.Inv → s.fault = false → s.phase = .absorbing →
    ∃ t, exec .finalize s = .next t ∧ t.needPerm = false) ∧
  (∀ s : State, s.fault = false → ∃ t, exec .init s = .next t ∧ t.needPerm = false) ∧
  (∀ s : State, (hardReset s).needPerm = false) ∧ State.reset.needPerm = false

/-! ## Frames -/

/-- What INIT and FINALIZE leave unchanged: the output stream, the latch of a command that is permitted, the
host's fields; and, when refused or faulting, every state byte, the buffer and the sequencing state. -/
def Obligations.InitAndFinalizeFrame : Prop :=
  ∀ (i : Instr) (s t : State), i = .init ∨ i = .finalize → exec i s = .next t →
    State.SameHost s t ∧ t.emitted = s.emitted ∧
    (permitted i s.phase → t.fault = s.fault ∧ t.errCode = s.errCode) ∧
    (s.fault = true ∨ ¬permitted i s.phase →
      (∀ k, k < 200 → sb t.lanes k = sb s.lanes k) ∧ t.buf = s.buf ∧ t.phase = s.phase ∧
      t.sqCursor = s.sqCursor ∧ t.needPerm = s.needPerm)

/-- What ABSORB leaves unchanged: the phase, the cursor, the owed permutation, the output stream; the bytes
buffered before it while the buffer stays short; and every state byte unless it fills the buffer (R26). -/
def Obligations.AbsorbFrame : Prop :=
  ∀ (d : Byte) (s t : State), exec (.absorb d) s = .next t →
    State.SameHost s t ∧ t.phase = s.phase ∧ t.sqCursor = s.sqCursor ∧ t.needPerm = s.needPerm ∧
    t.emitted = s.emitted ∧
    (s.phase = .absorbing → t.fault = s.fault ∧ t.errCode = s.errCode) ∧
    (permutations (.absorb d) s = 0 →
      (∀ k, k < 200 → sb t.lanes k = sb s.lanes k) ∧
      ∀ j, j < s.buf.length → t.buf.getD j 0#8 = s.buf.getD j 0#8)

/-- What SQUEEZE leaves unchanged: the buffer, the phase, and every state byte unless a permutation was owed. -/
def Obligations.SqueezeFrame : Prop :=
  ∀ s t : State, exec .squeeze s = .next t →
    State.SameHost s t ∧ t.buf = s.buf ∧ t.phase = s.phase ∧
    (s.phase = .squeezing → t.fault = s.fault ∧ t.errCode = s.errCode) ∧
    (s.needPerm = false → ∀ k, k < 200 → sb t.lanes k = sb s.lanes k)

/-- R22: the rate part is bytes 0 to 135, lanes 0 to 16; no block is XORed into the capacity lanes, no response
is a capacity byte, and only `PERMUTE()` and INIT write them. -/
def Obligations.CapacityIsOnlyPermutedOrInitialised : Prop :=
  (∀ (A : Lanes) (blk : List Byte) (i : Nat), rateLanes ≤ i → i < laneCount →
    (xorBlock A blk).lane i = A.lane i) ∧
  (∀ (i : Instr) (s t : State) (b : Byte), exec i s = .next t → t.rsp = some b →
    s.sqCursor.toNat < rate ∧ b = sb t.lanes s.sqCursor.toNat) ∧
  (∀ (i : Instr) (s t : State), exec i s = .next t → i ≠ .init → permutations i s = 0 →
    ∀ k, rateLanes ≤ k → k < laneCount → t.lanes.lane k = s.lanes.lane k) ∧
  (∀ k, k < 200 → (k / 8 < rateLanes ↔ k < rate)) ∧ rate + capacity = 200

/-- R22, R23: what the host sees of one window does not depend on the capacity lanes. -/
def Obligations.CapacityStaysHidden : Prop :=
  ∀ (s u : State) (C : Lanes), s.needPerm = false →
    (∀ i, i < rateLanes → C.lane i = s.lanes.lane i) → u = { s with lanes := C } →
      ∀ t, exec .squeeze s = .next t →
        ∃ v, exec .squeeze u = .next v ∧ v.rsp = t.rsp ∧ v.emitted = t.emitted ∧
          v.stPhase = t.stPhase ∧ v.stFault = t.stFault ∧ v.stErr = t.stErr

/-! ## Faults -/

/-- R132: the three contract violations, exactly. -/
def Obligations.ContractViolationsExactly : Prop :=
  ∀ (i : Instr) (s : State), s.fault = false →
    ((∃ t, exec i s = .next t ∧ t.fault = true) ↔
      ((∃ d, i = .absorb d) ∧ s.phase = .squeezing) ∨
      (i = .squeeze ∧ s.phase = .absorbing) ∨
      (i = .finalize ∧ s.phase = .squeezing))

/-- R131: the code each cause writes, who raises it, and that no other value is ever written. -/
def Obligations.CauseCodes : Prop :=
  (∀ (d : Byte) (s : State), s.fault = false → s.phase = .squeezing →
    ∃ t, exec (.absorb d) s = .next t ∧ t.fault = true ∧ t.errCode = 1#3) ∧
  (∀ s : State, s.fault = false → s.phase = .absorbing →
    ∃ t, exec .squeeze s = .next t ∧ t.fault = true ∧ t.errCode = 2#3) ∧
  (∀ s : State, s.fault = false → s.phase = .squeezing →
    ∃ t, exec .finalize s = .next t ∧ t.fault = true ∧ t.errCode = 3#3) ∧
  (∀ (w : CmdWord) (s : State), s.fault = false → decode w = none →
    ∃ t, issue w s = .next t ∧ t.fault = true ∧ t.errCode = 4#3) ∧
  (∀ s t : State, step s = .next t → t.errCode = s.errCode ∨ t.errCode.toNat ≤ 4) ∧
  (∀ s t : State, s.Inv → step s = .next t → t.fault = false → t.errCode = 0#3)

/-- R134: fault entry is precise: two writes and nothing else, no response; the status outputs show it; and no
later command has any effect. -/
def Obligations.FaultEntryIsPrecise : Prop :=
  (∀ (w : CmdWord) (s t : State), s.fault = false → issue w s = .next t → t.fault = true →
    ∃ c : Cause, t = { s with fault := true, errCode := c.code, rsp := none } ∧
      t.stFault = 1#1 ∧ t.stErr = c.code ∧ t.rspValid = false ∧ ∀ v, issue v t = .next t) ∧
  exec .squeeze State.reset = .next { State.reset with fault := true, errCode := 2#3 }

/-- R136: while `fault` = 1 every word is refused, for as long as the host issues words. -/
def Obligations.FaultedEngineRefusesEveryWord : Prop :=
  (∀ (w : CmdWord) (s : State), s.fault = true → issue w s = .next { s with rsp := none }) ∧
  (∀ (inputs : List HostInput) (s : State), s.fault = true → (∀ h ∈ inputs, h.noReset = true) →
    ∃ t, runSteps inputs.length (s.withInputs inputs) = .next t ∧ State.SameEngine s t ∧
      t.emitted = s.emitted ∧ (inputs ≠ [] → t.rspValid = false))

/-- R137: no command clears the latch; only hardware reset does, and it clears everything else as well. -/
def Obligations.OnlyResetClearsTheLatch : Prop :=
  ∀ s t : State, s.fault = true → step s = .next t →
    ((nextInput s).noReset = true → t.fault = true ∧ t.errCode = s.errCode) ∧
    ((nextInput s).noReset = false → State.SameEngine State.reset t)

/-- R108: every transition of the phase. -/
def Obligations.PhaseTransitions : Prop :=
  (∀ s : State, s.Inv → s.fault = false → s.phase = .absorbing →
    (∀ d, ∃ t, exec (.absorb d) s = .next t ∧ t.phase = .absorbing ∧ t.fault = false) ∧
    (∃ t, exec .finalize s = .next t ∧ t.phase = .squeezing ∧ t.fault = false) ∧
    (∃ t, exec .squeeze s = .next t ∧ t.phase = .absorbing ∧ t.fault = true) ∧
    (∃ t, exec .init s = .next t ∧ t.phase = .absorbing ∧ t.fault = false)) ∧
  (∀ s : State, s.Inv → s.fault = false → s.phase = .squeezing →
    (∃ t, exec .squeeze s = .next t ∧ t.phase = .squeezing ∧ t.fault = false) ∧
    (∀ d, ∃ t, exec (.absorb d) s = .next t ∧ t.phase = .squeezing ∧ t.fault = true) ∧
    (∃ t, exec .finalize s = .next t ∧ t.phase = .squeezing ∧ t.fault = true) ∧
    (∃ t, exec .init s = .next t ∧ t.phase = .absorbing ∧ t.fault = false)) ∧
  (∀ (w : CmdWord) (s : State), s.fault = false → decode w = none →
    ∃ t, issue w s = .next t ∧ t.phase = s.phase ∧ t.fault = true) ∧
  (∀ (w : CmdWord) (s : State), s.fault = true →
    ∃ t, issue w s = .next t ∧ t.phase = s.phase ∧ t.fault = true)

/-- R139: on the well-formed command programs no fault can occur, and on every other one a fault does. Which
programs are well formed is the model's reading of R139 (log entry 10). -/
def Obligations.WellFormedProgramsNeverFault : Prop :=
  ∀ (program : List Instr) (s : State), s.Inv → s.fault = false →
    ∃ t, execAll program s = .next t ∧
      (t.Good ↔ Program.wf (decide (s.phase = .squeezing)) program = true)

/-! ## Invariants -/

/-- R32: every step keeps the invariants that hold between commands. -/
def Obligations.StepKeepsTheInvariant : Prop :=
  ∀ s t : State, s.Inv → step s = .next t → t.Inv

/-- R32 at reset. -/
def Obligations.ResetMeetsTheInvariant : Prop := State.reset.Inv

/-- R32, which the spec derives from R25, R28, R29, R31 and R100 to R104: the invariants hold in every state reachable
from reset, whatever the host does. -/
def Obligations.ReachableStatesMeetTheInvariant : Prop :=
  ∀ (inputs : List HostInput) (n : Nat),
    ∃ t, runSteps n (State.reset.withInputs inputs) = .next t ∧ t.Inv

/-! ## Sessions -/

/-- R106, which the spec derives from R102: `UPDATE` as single-byte ABSORBs is the source's `update` of the whole
slice. -/
def Obligations.UpdateIsTheSliceUpdate : Prop :=
  (∀ (data : List Byte) (s : State), s.fault = false → s.phase = .absorbing → s.buf.length ≤ 135 →
    ∃ t, execAll (updateBytes data) s = .next t ∧
      (t.lanes, t.buf) = sliceUpdate s.lanes s.buf data ∧
      t.phase = s.phase ∧ t.sqCursor = s.sqCursor ∧ t.needPerm = s.needPerm ∧ t.fault = s.fault ∧
      t.errCode = s.errCode ∧ t.emitted = s.emitted ∧
      t.buf.length = (s.buf.length + data.length) % 136 ∧
      permutationsAll (updateBytes data) s = (s.buf.length + data.length) / 136) ∧
  (∀ s : State, execAll (updateBytes []) s = .next s)

/-- R107, which the spec derives from R104: `READ n` delivers the next `n` bytes of the stream from where the cursor stands; `READ 0` issues no
command; two reads are one. -/
def Obligations.ReadDeliversTheStream : Prop :=
  (∀ (n : Nat) (s : State) (A : Lanes), s.fault = false → s.phase = .squeezing →
    s.sqCursor.toNat ≤ 135 → (s.needPerm = true → s.sqCursor = 0#8) →
    A = (if s.needPerm then keccakF s.lanes else s.lanes) →
      ∃ t, execAll (readBytes n) s = .next t ∧
        t.emitted = s.emitted ++ (List.range n).map (fun j => streamByte A (s.sqCursor.toNat + j)) ∧
        t.fault = false ∧ t.phase = .squeezing) ∧
  (readBytes 0 = [] ∧ ∀ s : State, execAll (readBytes 0) s = .next s ∧ permutationsAll (readBytes 0) s = 0) ∧
  (∀ n m : Nat, readBytes n ++ readBytes m = readBytes (n + m))

/-- R109, which the spec derives from R102 to R105: what a session computes, from INIT (in either phase) and from reset.
The clause from `State.reset` reads the whole of `emitted`, and rests on its empty start value (the model's choice, log
entry 4). -/
def Obligations.SessionComputesShake256 : Prop :=
  (∀ (M : List Byte) (s : State), s.fault = false →
    ∃ t, execAll (newSession ++ updateBytes M ++ finalizeXof) s = .next t ∧
      t.lanes = finalArray M ∧ t.phase = .squeezing ∧ t.sqCursor = 0#8 ∧ t.needPerm = false) ∧
  (∀ (M : List Byte) (n : Nat) (s : State), s.fault = false →
    ∃ t, execAll (shakeSession M n) s = .next t ∧ t.fault = false ∧
      t.emitted = s.emitted ++ shake256 M n) ∧
  (∀ (M : List Byte) (n : Nat),
    ∃ t, execAll (updateBytes M ++ finalizeXof ++ readBytes n) State.reset = .next t ∧
      t.emitted = shake256 M n) ∧
  (∀ M : List Byte, (paddedMessage M).length = 136 * (M.length / 136 + 1) ∧
    (paddedMessage M).take M.length = M)

/-- R110: the output for a longer request extends the output for a shorter one. -/
def Obligations.OutputIsExtendable : Prop :=
  ∀ (M : List Byte) (n m : Nat) (s : State), s.fault = false → n < m →
    ∃ t u extra, execAll (shakeSession M n) s = .next t ∧ execAll (shakeSession M m) s = .next u ∧
      u.emitted = t.emitted ++ extra ∧ extra.length = m - n

/-- R111, which the spec derives from R100 to R104: a command is a function of the Engine's state and the word; nothing depends on the host's fields, and
two sessions over one message give one output. -/
def Obligations.CommandsAreDeterministic : Prop :=
  (∀ (w : CmdWord) (s u t : State), State.SameEngine s u → issue w s = .next t →
    ∃ v, issue w u = .next v ∧ State.SameEngine t v ∧ v.rsp = t.rsp) ∧
  (∀ (M : List Byte) (n : Nat) (s u : State), s.fault = false → u.fault = false →
    ∃ t v out, execAll (shakeSession M n) s = .next t ∧ execAll (shakeSession M n) u = .next v ∧
      t.emitted = s.emitted ++ out ∧ v.emitted = u.emitted ++ out ∧ out.length = n)

/-- R113, which the spec derives from R102 to R104: how many permutations a session runs, in each of its parts. -/
def Obligations.PermutationCount : Prop :=
  ∀ (M : List Byte) (n : Nat) (s : State), s.fault = false →
    permutationsAll (newSession ++ updateBytes M) s = M.length / 136 ∧
    permutationsAll (newSession ++ updateBytes M ++ finalizeXof) s = M.length / 136 + 1 ∧
    permutationsAll (shakeSession M n) s =
      M.length / 136 + 1 + (if n = 0 then 0 else (n - 1) / 136)

/-- R117: an input of exactly 136 bytes is permuted once before the padding, and the padding block is a
distinct, separately permuted block. -/
def Obligations.BoundaryScenario : Prop :=
  ∀ (M : List Byte) (s : State), M.length = 136 → s.fault = false →
    ∃ t u, execAll (newSession ++ updateBytes M) s = .next t ∧ t.buf = [] ∧
      t.lanes = keccakF (xorBlock Lanes.zero M) ∧
      permutationsAll (newSession ++ updateBytes M) s = 1 ∧
      exec .finalize t = .next u ∧
      u.lanes = keccakF (xorBlock t.lanes (0x1F#8 :: (List.replicate 134 0x00#8 ++ [0x80#8]))) ∧
      permutationsAll (newSession ++ updateBytes M ++ finalizeXof) s = 2

/-! ## Timing -/

/-- R160: which commands permute, and so how long each takes, depends on the counts of bytes alone, never on
their values. -/
def Obligations.TimingIsIndependentOfData : Prop :=
  (∀ (i j : Instr) (s u : State), sameOpcode i j → State.SameControl s u →
    permutations i s = permutations j u ∧ commandCycles i s = commandCycles j u ∧
    (∀ t, exec i s = .next t → ∃ v, exec j u = .next v ∧ State.SameControl t v)) ∧
  (∀ (a b : List Instr) (s u : State), List.Forall₂ sameOpcode a b → State.SameControl s u →
    permutationsAll a s = permutationsAll b u)

/-- R159, R7: a command takes `CMD_CYCLES`, and `PERM_CYCLES` more when it runs its one permutation. -/
def Obligations.CommandCycles : Prop :=
  1 ≤ Config.cmdCycles ∧ 1 ≤ Config.permCycles ∧
  ∀ (i : Instr) (s : State),
    (permutations i s = 0 ∧ commandCycles i s = Config.cmdCycles) ∨
    (permutations i s = 1 ∧ commandCycles i s = Config.cmdCycles + Config.permCycles)
end

