-- ==== Sys2Proof/Laws/Params.lean ====
section
/-! SUPPORT. The parameters of R6 as numerals, for simp and omega. -/

namespace Sys2Proof.Machine

@[simp] theorem rate_eq : rate = 136 := rfl
@[simp] theorem capacity_eq : capacity = 64 := rfl
@[simp] theorem laneCount_eq : laneCount = 25 := rfl
@[simp] theorem rounds_eq : rounds = 24 := rfl
@[simp] theorem rateLanes_eq : rateLanes = 17 := rfl

end Sys2Proof.Machine
end

