-- ==== Sys2Proof/Laws/Lanes.lean ====
section
/-! SUPPORT. The state array: reading what was built or written, and equality lane by lane. -/

namespace Sys2Proof.Machine

@[simp] theorem Five.get_build {α : Type} (f : Fin 5 → α) (i : Fin 5) : (Five.build f).get i = f i := by
  match i with
  | 0 => rfl
  | 1 => rfl
  | 2 => rfl
  | 3 => rfl
  | 4 => rfl

theorem Five.ext_get {α : Type} {v w : Five α} (h : ∀ i, v.get i = w.get i) : v = w := by
  obtain ⟨a, b, c, d, e⟩ := v
  obtain ⟨a', b', c', d', e'⟩ := w
  simpa [Five.get] using And.intro (h 0) (And.intro (h 1) (And.intro (h 2) (And.intro (h 3) (h 4))))

@[simp] theorem Lanes.at_build (f : Fin 5 → Fin 5 → Lane) (x y : Fin 5) : (Lanes.build f).at x y = f x y := by
  simp [Lanes.at, Lanes.build]

/-- Two arrays that agree at all coordinates are equal. -/
theorem Lanes.ext_at {A B : Lanes} (h : ∀ x y, A.at x y = B.at x y) : A = B :=
  Five.ext_get fun y => Five.ext_get fun x => h x y

@[simp] theorem laneX_index (x y : Fin 5) : laneX (x.val + 5 * y.val) = x := by
  simp only [laneX, Fin.ext_iff]; omega

@[simp] theorem laneY_index (x y : Fin 5) : laneY (x.val + 5 * y.val) = y := by
  simp only [laneY, Fin.ext_iff]; omega

/-- The two names of a lane (R11). -/
@[simp] theorem Lanes.lane_index (A : Lanes) (x y : Fin 5) : A.lane (x.val + 5 * y.val) = A.at x y := by
  simp [Lanes.lane]

/-- Two arrays that agree at all 25 indices are equal. -/
theorem Lanes.ext_lane {A B : Lanes} (h : ∀ i, i < laneCount → A.lane i = B.lane i) : A = B :=
  Lanes.ext_at fun x y => by
    have := h (x.val + 5 * y.val) (by have := x.isLt; have := y.isLt; simp only [laneCount]; omega)
    simpa using this

/-- Two indices in 0..24 with the same coordinates are the same index. -/
theorem lane_coordinates_inj {i j : Nat} (hi : i < laneCount) (hj : j < laneCount)
    (hx : laneX i = laneX j) (hy : laneY i = laneY j) : i = j := by
  simp only [laneX, laneY, Fin.mk.injEq, laneCount] at *
  omega

/-- A lane after a write of a lane (R12). -/
theorem Lanes.lane_setLane (A : Lanes) (v : Lane) {i j : Nat} (hi : i < laneCount) (hj : j < laneCount) :
    (A.setLane i v).lane j = if j = i then v else A.lane j := by
  unfold Lanes.setLane
  by_cases h : j = i
  · subst h; simp [Lanes.lane]
  · have : ¬(laneX j = laneX i ∧ laneY j = laneY i) := fun ⟨a, b⟩ => h (lane_coordinates_inj hj hi a b)
    simp [Lanes.lane, this, h]

@[simp] theorem Lanes.at_zero (x y : Fin 5) : Lanes.zero.at x y = 0#64 := by simp [Lanes.zero]
@[simp] theorem Lanes.lane_zero (i : Nat) : Lanes.zero.lane i = 0#64 := by simp [Lanes.lane]

/-! ### The step mappings, lane by lane -/

@[simp] theorem theta_at (A : Lanes) (x y : Fin 5) : (theta A).at x y = A.at x y ^^^ thetaMask A x := by
  simp [theta]
@[simp] theorem rho_at (A : Lanes) (x y : Fin 5) : (rho A).at x y = rotl64 (A.at x y) (rot x y) := by
  simp [rho]
@[simp] theorem pi_at (A : Lanes) (x y : Fin 5) : (pi A).at x y = A.at (x + 3 * y) x := by
  simp [pi]
@[simp] theorem chi_at (A : Lanes) (x y : Fin 5) :
    (chi A).at x y = A.at x y ^^^ (~~~(A.at (x + 1) y) &&& A.at (x + 2) y) := by
  simp [chi]
@[simp] theorem iota_at (A : Lanes) (i : Nat) (x y : Fin 5) :
    (iota A i).at x y = if x = 0 ∧ y = 0 then A.at 0 0 ^^^ rc i else A.at x y := by
  simp [iota]

end Sys2Proof.Machine
end

