-- ==== Sys2Proof/Laws/Bytes.lean ====
section
/-! SUPPORT. The byte view bit by bit, equality byte by byte, and the padding block by position. -/

namespace Sys2Proof.Machine

/-- Bit `z` of state byte `k` is a bit of lane `k div 8` (R41). -/
theorem sb_getLsbD (A : Lanes) (k : Nat) {z : Nat} (hz : z < 8) :
    (sb A k).getLsbD z = (A.lane (k / 8)).getLsbD (8 * (k % 8) + z) := by
  simp [sb, hz]

/-- Bit `z` of a lane made of eight bytes (R41). -/
theorem laneOfBytes_getLsbD (byte : Nat → Byte) (i : Nat) {z : Nat} (hz : z < 64) :
    (laneOfBytes byte i).getLsbD z = (byte (8 * i + z / 8)).getLsbD (z % 8) := by
  unfold laneOfBytes
  simp only [BitVec.getLsbD_append]
  have h : z / 8 = 0 ∨ z / 8 = 1 ∨ z / 8 = 2 ∨ z / 8 = 3 ∨ z / 8 = 4 ∨ z / 8 = 5 ∨ z / 8 = 6 ∨ z / 8 = 7 := by
    omega
  rcases h with h | h | h | h | h | h | h | h <;> rw [h] <;> split_ifs <;>
    first | omega | (congr 1; omega)

/-- Two arrays that agree in all 200 bytes are equal. -/
theorem Lanes.ext_sb {A B : Lanes} (h : ∀ k, k < 200 → sb A k = sb B k) : A = B := by
  apply Lanes.ext_lane
  intro i hi
  simp only [laneCount] at hi
  apply BitVec.eq_of_getLsbD_eq
  intro z hz
  have hb := congrArg (fun b => b.getLsbD (z % 8)) (h (8 * i + z / 8) (by omega))
  have hm : z % 8 < 8 := Nat.mod_lt _ (by decide)
  simp only [sb_getLsbD _ _ hm] at hb
  rwa [show (8 * i + z / 8) / 8 = i by omega,
    show 8 * ((8 * i + z / 8) % 8) + z % 8 = z by omega] at hb

/-- The padding block at position `j` (R105). -/
theorem padBlock_getD {buf : List Byte} (h : buf.length ≤ 135) {j : Nat} (hj : j < 136) :
    (padBlock buf).getD j 0#8 =
      (if j < buf.length then buf.getD j 0#8 else if j = buf.length then 0x1F#8 else 0#8) |||
        (if j = 135 then 0x80#8 else 0#8) := by
  simp only [padBlock, orByte, List.getD_eq_getElem?_getD, List.getElem?_set, List.getElem?_append,
    List.getElem?_replicate, ds, padEnd, List.length_set, List.length_append, List.length_replicate]
  by_cases h1 : j = 135 <;> by_cases h2 : j = buf.length <;> by_cases h3 : j < buf.length <;>
    simp [h1, h2, h3] <;> grind

end Sys2Proof.Machine
end

