-- ==== Sys2Proof/Laws/State.lean ====
section
/-! SUPPORT. One lemma for each field under each named update of the state, so that no proof unfolds a record
update. -/

namespace Sys2Proof.Machine

/-! ### permute -/

@[simp] theorem State.permute_lanes (s : State) : s.permute.lanes = keccakF s.lanes := rfl
@[simp] theorem State.permute_buf (s : State) : s.permute.buf = s.buf := rfl
@[simp] theorem State.permute_phase (s : State) : s.permute.phase = s.phase := rfl
@[simp] theorem State.permute_sqCursor (s : State) : s.permute.sqCursor = s.sqCursor := rfl
@[simp] theorem State.permute_needPerm (s : State) : s.permute.needPerm = s.needPerm := rfl
@[simp] theorem State.permute_fault (s : State) : s.permute.fault = s.fault := rfl
@[simp] theorem State.permute_errCode (s : State) : s.permute.errCode = s.errCode := rfl
@[simp] theorem State.permute_rsp (s : State) : s.permute.rsp = s.rsp := rfl
@[simp] theorem State.permute_emitted (s : State) : s.permute.emitted = s.emitted := rfl
@[simp] theorem State.permute_pending (s : State) : s.permute.pending = s.pending := rfl
@[simp] theorem State.permute_tick (s : State) : s.permute.tick = s.tick := rfl

/-! ### absorbBlock -/

@[simp] theorem State.absorbBlock_lanes (s : State) (blk : List Byte) : (s.absorbBlock blk).lanes = keccakF (xorBlock s.lanes blk) := by
  simp [State.absorbBlock]
@[simp] theorem State.absorbBlock_buf (s : State) (blk : List Byte) : (s.absorbBlock blk).buf = s.buf := rfl
@[simp] theorem State.absorbBlock_phase (s : State) (blk : List Byte) : (s.absorbBlock blk).phase = s.phase := rfl
@[simp] theorem State.absorbBlock_sqCursor (s : State) (blk : List Byte) : (s.absorbBlock blk).sqCursor = s.sqCursor := rfl
@[simp] theorem State.absorbBlock_needPerm (s : State) (blk : List Byte) : (s.absorbBlock blk).needPerm = s.needPerm := rfl
@[simp] theorem State.absorbBlock_fault (s : State) (blk : List Byte) : (s.absorbBlock blk).fault = s.fault := rfl
@[simp] theorem State.absorbBlock_errCode (s : State) (blk : List Byte) : (s.absorbBlock blk).errCode = s.errCode := rfl
@[simp] theorem State.absorbBlock_rsp (s : State) (blk : List Byte) : (s.absorbBlock blk).rsp = s.rsp := rfl
@[simp] theorem State.absorbBlock_emitted (s : State) (blk : List Byte) : (s.absorbBlock blk).emitted = s.emitted := rfl
@[simp] theorem State.absorbBlock_pending (s : State) (blk : List Byte) : (s.absorbBlock blk).pending = s.pending := rfl
@[simp] theorem State.absorbBlock_tick (s : State) (blk : List Byte) : (s.absorbBlock blk).tick = s.tick := rfl

/-! ### silent -/

@[simp] theorem State.silent_lanes (s : State) : s.silent.lanes = s.lanes := rfl
@[simp] theorem State.silent_buf (s : State) : s.silent.buf = s.buf := rfl
@[simp] theorem State.silent_phase (s : State) : s.silent.phase = s.phase := rfl
@[simp] theorem State.silent_sqCursor (s : State) : s.silent.sqCursor = s.sqCursor := rfl
@[simp] theorem State.silent_needPerm (s : State) : s.silent.needPerm = s.needPerm := rfl
@[simp] theorem State.silent_fault (s : State) : s.silent.fault = s.fault := rfl
@[simp] theorem State.silent_errCode (s : State) : s.silent.errCode = s.errCode := rfl
@[simp] theorem State.silent_rsp (s : State) : s.silent.rsp = none := rfl
@[simp] theorem State.silent_emitted (s : State) : s.silent.emitted = s.emitted := rfl
@[simp] theorem State.silent_pending (s : State) : s.silent.pending = s.pending := rfl
@[simp] theorem State.silent_tick (s : State) : s.silent.tick = s.tick := rfl

/-! ### emit -/

@[simp] theorem State.emit_lanes (s : State) (b : Byte) : (s.emit b).lanes = s.lanes := rfl
@[simp] theorem State.emit_buf (s : State) (b : Byte) : (s.emit b).buf = s.buf := rfl
@[simp] theorem State.emit_phase (s : State) (b : Byte) : (s.emit b).phase = s.phase := rfl
@[simp] theorem State.emit_sqCursor (s : State) (b : Byte) : (s.emit b).sqCursor = s.sqCursor := rfl
@[simp] theorem State.emit_needPerm (s : State) (b : Byte) : (s.emit b).needPerm = s.needPerm := rfl
@[simp] theorem State.emit_fault (s : State) (b : Byte) : (s.emit b).fault = s.fault := rfl
@[simp] theorem State.emit_errCode (s : State) (b : Byte) : (s.emit b).errCode = s.errCode := rfl
@[simp] theorem State.emit_rsp (s : State) (b : Byte) : (s.emit b).rsp = some b := rfl
@[simp] theorem State.emit_emitted (s : State) (b : Byte) : (s.emit b).emitted = s.emitted ++ [b] := rfl
@[simp] theorem State.emit_pending (s : State) (b : Byte) : (s.emit b).pending = s.pending := rfl
@[simp] theorem State.emit_tick (s : State) (b : Byte) : (s.emit b).tick = s.tick := rfl

/-! ### refuse -/

@[simp] theorem State.refuse_lanes (s : State) : s.refuse.lanes = s.lanes := rfl
@[simp] theorem State.refuse_buf (s : State) : s.refuse.buf = s.buf := rfl
@[simp] theorem State.refuse_phase (s : State) : s.refuse.phase = s.phase := rfl
@[simp] theorem State.refuse_sqCursor (s : State) : s.refuse.sqCursor = s.sqCursor := rfl
@[simp] theorem State.refuse_needPerm (s : State) : s.refuse.needPerm = s.needPerm := rfl
@[simp] theorem State.refuse_fault (s : State) : s.refuse.fault = s.fault := rfl
@[simp] theorem State.refuse_errCode (s : State) : s.refuse.errCode = s.errCode := rfl
@[simp] theorem State.refuse_rsp (s : State) : s.refuse.rsp = none := rfl
@[simp] theorem State.refuse_emitted (s : State) : s.refuse.emitted = s.emitted := rfl
@[simp] theorem State.refuse_pending (s : State) : s.refuse.pending = s.pending := rfl
@[simp] theorem State.refuse_tick (s : State) : s.refuse.tick = s.tick := rfl

/-! ### raiseFault -/

@[simp] theorem State.raiseFault_lanes (s : State) (c : Cause) : (s.raiseFault c).lanes = s.lanes := rfl
@[simp] theorem State.raiseFault_buf (s : State) (c : Cause) : (s.raiseFault c).buf = s.buf := rfl
@[simp] theorem State.raiseFault_phase (s : State) (c : Cause) : (s.raiseFault c).phase = s.phase := rfl
@[simp] theorem State.raiseFault_sqCursor (s : State) (c : Cause) : (s.raiseFault c).sqCursor = s.sqCursor := rfl
@[simp] theorem State.raiseFault_needPerm (s : State) (c : Cause) : (s.raiseFault c).needPerm = s.needPerm := rfl
@[simp] theorem State.raiseFault_fault (s : State) (c : Cause) : (s.raiseFault c).fault = true := rfl
@[simp] theorem State.raiseFault_errCode (s : State) (c : Cause) : (s.raiseFault c).errCode = c.code := rfl
@[simp] theorem State.raiseFault_rsp (s : State) (c : Cause) : (s.raiseFault c).rsp = none := rfl
@[simp] theorem State.raiseFault_emitted (s : State) (c : Cause) : (s.raiseFault c).emitted = s.emitted := rfl
@[simp] theorem State.raiseFault_pending (s : State) (c : Cause) : (s.raiseFault c).pending = s.pending := rfl
@[simp] theorem State.raiseFault_tick (s : State) (c : Cause) : (s.raiseFault c).tick = s.tick := rfl

/-! ### newSession -/

@[simp] theorem State.newSession_lanes (s : State) : s.newSession.lanes = Lanes.zero := rfl
@[simp] theorem State.newSession_buf (s : State) : s.newSession.buf = [] := rfl
@[simp] theorem State.newSession_phase (s : State) : s.newSession.phase = .absorbing := rfl
@[simp] theorem State.newSession_sqCursor (s : State) : s.newSession.sqCursor = 0#8 := rfl
@[simp] theorem State.newSession_needPerm (s : State) : s.newSession.needPerm = false := rfl
@[simp] theorem State.newSession_fault (s : State) : s.newSession.fault = s.fault := rfl
@[simp] theorem State.newSession_errCode (s : State) : s.newSession.errCode = s.errCode := rfl
@[simp] theorem State.newSession_rsp (s : State) : s.newSession.rsp = none := rfl
@[simp] theorem State.newSession_emitted (s : State) : s.newSession.emitted = s.emitted := rfl
@[simp] theorem State.newSession_pending (s : State) : s.newSession.pending = s.pending := rfl
@[simp] theorem State.newSession_tick (s : State) : s.newSession.tick = s.tick := rfl

/-! ### finish -/

@[simp] theorem State.finish_lanes (s : State) : s.finish.lanes = keccakF (xorBlock s.lanes (padBlock s.buf)) := by
  simp [State.finish]
@[simp] theorem State.finish_buf (s : State) : s.finish.buf = [] := rfl
@[simp] theorem State.finish_phase (s : State) : s.finish.phase = .squeezing := rfl
@[simp] theorem State.finish_sqCursor (s : State) : s.finish.sqCursor = 0#8 := rfl
@[simp] theorem State.finish_needPerm (s : State) : s.finish.needPerm = false := rfl
@[simp] theorem State.finish_fault (s : State) : s.finish.fault = s.fault := rfl
@[simp] theorem State.finish_errCode (s : State) : s.finish.errCode = s.errCode := rfl
@[simp] theorem State.finish_rsp (s : State) : s.finish.rsp = none := rfl
@[simp] theorem State.finish_emitted (s : State) : s.finish.emitted = s.emitted := rfl
@[simp] theorem State.finish_pending (s : State) : s.finish.pending = s.pending := rfl
@[simp] theorem State.finish_tick (s : State) : s.finish.tick = s.tick := rfl

/-! ### withInputs -/

@[simp] theorem State.withInputs_lanes (s : State) (l : List HostInput) : (s.withInputs l).lanes = s.lanes := rfl
@[simp] theorem State.withInputs_buf (s : State) (l : List HostInput) : (s.withInputs l).buf = s.buf := rfl
@[simp] theorem State.withInputs_phase (s : State) (l : List HostInput) : (s.withInputs l).phase = s.phase := rfl
@[simp] theorem State.withInputs_sqCursor (s : State) (l : List HostInput) : (s.withInputs l).sqCursor = s.sqCursor := rfl
@[simp] theorem State.withInputs_needPerm (s : State) (l : List HostInput) : (s.withInputs l).needPerm = s.needPerm := rfl
@[simp] theorem State.withInputs_fault (s : State) (l : List HostInput) : (s.withInputs l).fault = s.fault := rfl
@[simp] theorem State.withInputs_errCode (s : State) (l : List HostInput) : (s.withInputs l).errCode = s.errCode := rfl
@[simp] theorem State.withInputs_rsp (s : State) (l : List HostInput) : (s.withInputs l).rsp = s.rsp := rfl
@[simp] theorem State.withInputs_emitted (s : State) (l : List HostInput) : (s.withInputs l).emitted = s.emitted := rfl
@[simp] theorem State.withInputs_pending (s : State) (l : List HostInput) : (s.withInputs l).pending = l := rfl
@[simp] theorem State.withInputs_tick (s : State) (l : List HostInput) : (s.withInputs l).tick = s.tick := rfl

/-! ### hardReset -/

@[simp] theorem hardReset_lanes (s : State) : (hardReset s).lanes = Lanes.zero := rfl
@[simp] theorem hardReset_buf (s : State) : (hardReset s).buf = [] := rfl
@[simp] theorem hardReset_phase (s : State) : (hardReset s).phase = .absorbing := rfl
@[simp] theorem hardReset_sqCursor (s : State) : (hardReset s).sqCursor = 0#8 := rfl
@[simp] theorem hardReset_needPerm (s : State) : (hardReset s).needPerm = false := rfl
@[simp] theorem hardReset_fault (s : State) : (hardReset s).fault = false := rfl
@[simp] theorem hardReset_errCode (s : State) : (hardReset s).errCode = 0#3 := rfl
@[simp] theorem hardReset_rsp (s : State) : (hardReset s).rsp = none := rfl
@[simp] theorem hardReset_emitted (s : State) : (hardReset s).emitted = s.emitted := rfl
@[simp] theorem hardReset_pending (s : State) : (hardReset s).pending = s.pending := rfl
@[simp] theorem hardReset_tick (s : State) : (hardReset s).tick = s.tick := rfl

/-! ### takeInput -/

@[simp] theorem takeInput_lanes (s : State) : (takeInput s).lanes = s.lanes := rfl
@[simp] theorem takeInput_buf (s : State) : (takeInput s).buf = s.buf := rfl
@[simp] theorem takeInput_phase (s : State) : (takeInput s).phase = s.phase := rfl
@[simp] theorem takeInput_sqCursor (s : State) : (takeInput s).sqCursor = s.sqCursor := rfl
@[simp] theorem takeInput_needPerm (s : State) : (takeInput s).needPerm = s.needPerm := rfl
@[simp] theorem takeInput_fault (s : State) : (takeInput s).fault = s.fault := rfl
@[simp] theorem takeInput_errCode (s : State) : (takeInput s).errCode = s.errCode := rfl
@[simp] theorem takeInput_rsp (s : State) : (takeInput s).rsp = s.rsp := rfl
@[simp] theorem takeInput_emitted (s : State) : (takeInput s).emitted = s.emitted := rfl
@[simp] theorem takeInput_pending (s : State) : (takeInput s).pending = s.pending.tail := rfl
@[simp] theorem takeInput_tick (s : State) : (takeInput s).tick = s.tick + 1 := rfl

/-! ### refreshWindow, advanceCursor -/

@[simp] theorem State.refreshWindow_lanes (s : State) : s.refreshWindow.lanes = if s.needPerm then keccakF s.lanes else s.lanes := by
  unfold State.refreshWindow; split <;> simp_all
@[simp] theorem State.refreshWindow_buf (s : State) : s.refreshWindow.buf = s.buf := by
  unfold State.refreshWindow; split <;> simp_all
@[simp] theorem State.refreshWindow_phase (s : State) : s.refreshWindow.phase = s.phase := by
  unfold State.refreshWindow; split <;> simp_all
@[simp] theorem State.refreshWindow_sqCursor (s : State) : s.refreshWindow.sqCursor = s.sqCursor := by
  unfold State.refreshWindow; split <;> simp_all
@[simp] theorem State.refreshWindow_needPerm (s : State) : s.refreshWindow.needPerm = false := by
  unfold State.refreshWindow; split <;> simp_all
@[simp] theorem State.refreshWindow_fault (s : State) : s.refreshWindow.fault = s.fault := by
  unfold State.refreshWindow; split <;> simp_all
@[simp] theorem State.refreshWindow_errCode (s : State) : s.refreshWindow.errCode = s.errCode := by
  unfold State.refreshWindow; split <;> simp_all
@[simp] theorem State.refreshWindow_rsp (s : State) : s.refreshWindow.rsp = s.rsp := by
  unfold State.refreshWindow; split <;> simp_all
@[simp] theorem State.refreshWindow_emitted (s : State) : s.refreshWindow.emitted = s.emitted := by
  unfold State.refreshWindow; split <;> simp_all
@[simp] theorem State.refreshWindow_pending (s : State) : s.refreshWindow.pending = s.pending := by
  unfold State.refreshWindow; split <;> simp_all
@[simp] theorem State.refreshWindow_tick (s : State) : s.refreshWindow.tick = s.tick := by
  unfold State.refreshWindow; split <;> simp_all
@[simp] theorem State.advanceCursor_lanes (s : State) : s.advanceCursor.lanes = s.lanes := by
  unfold State.advanceCursor; split <;> simp_all
@[simp] theorem State.advanceCursor_buf (s : State) : s.advanceCursor.buf = s.buf := by
  unfold State.advanceCursor; split <;> simp_all
@[simp] theorem State.advanceCursor_phase (s : State) : s.advanceCursor.phase = s.phase := by
  unfold State.advanceCursor; split <;> simp_all
@[simp] theorem State.advanceCursor_sqCursor (s : State) : s.advanceCursor.sqCursor = if s.sqCursor = 135#8 then 0#8 else s.sqCursor + 1#8 := by
  unfold State.advanceCursor; split <;> simp_all
@[simp] theorem State.advanceCursor_needPerm (s : State) : s.advanceCursor.needPerm = (if s.sqCursor = 135#8 then true else s.needPerm) := by
  unfold State.advanceCursor; split <;> simp_all
@[simp] theorem State.advanceCursor_fault (s : State) : s.advanceCursor.fault = s.fault := by
  unfold State.advanceCursor; split <;> simp_all
@[simp] theorem State.advanceCursor_errCode (s : State) : s.advanceCursor.errCode = s.errCode := by
  unfold State.advanceCursor; split <;> simp_all
@[simp] theorem State.advanceCursor_rsp (s : State) : s.advanceCursor.rsp = s.rsp := by
  unfold State.advanceCursor; split <;> simp_all
@[simp] theorem State.advanceCursor_emitted (s : State) : s.advanceCursor.emitted = s.emitted := by
  unfold State.advanceCursor; split <;> simp_all
@[simp] theorem State.advanceCursor_pending (s : State) : s.advanceCursor.pending = s.pending := by
  unfold State.advanceCursor; split <;> simp_all
@[simp] theorem State.advanceCursor_tick (s : State) : s.advanceCursor.tick = s.tick := by
  unfold State.advanceCursor; split <;> simp_all

/-! ### absorbByte -/

/-- ABSORB while the buffer does not fill: only the buffer changes. -/
theorem State.absorbByte_short (s : State) (d : Byte) (h : s.buf.length + 1 ≠ rate) :
    s.absorbByte d = State.silent { s with buf := s.buf ++ [d] } := by
  simp [State.absorbByte, h]

/-- ABSORB of the 136th byte: the block enters the sponge and the buffer empties. -/
theorem State.absorbByte_full (s : State) (d : Byte) (h : s.buf.length + 1 = rate) :
    s.absorbByte d =
      State.silent { s with lanes := keccakF (xorBlock s.lanes (s.buf ++ [d])), buf := [] } := by
  simp [State.absorbByte, h, State.absorbBlock, State.permute]

@[simp] theorem State.absorbByte_phase (s : State) (d : Byte) : (s.absorbByte d).phase = s.phase := by
  unfold State.absorbByte; dsimp only; split <;> rfl
@[simp] theorem State.absorbByte_sqCursor (s : State) (d : Byte) : (s.absorbByte d).sqCursor = s.sqCursor := by
  unfold State.absorbByte; dsimp only; split <;> rfl
@[simp] theorem State.absorbByte_needPerm (s : State) (d : Byte) : (s.absorbByte d).needPerm = s.needPerm := by
  unfold State.absorbByte; dsimp only; split <;> rfl
@[simp] theorem State.absorbByte_fault (s : State) (d : Byte) : (s.absorbByte d).fault = s.fault := by
  unfold State.absorbByte; dsimp only; split <;> rfl
@[simp] theorem State.absorbByte_errCode (s : State) (d : Byte) : (s.absorbByte d).errCode = s.errCode := by
  unfold State.absorbByte; dsimp only; split <;> rfl
@[simp] theorem State.absorbByte_rsp (s : State) (d : Byte) : (s.absorbByte d).rsp = none := by
  unfold State.absorbByte; dsimp only; split <;> rfl
@[simp] theorem State.absorbByte_emitted (s : State) (d : Byte) : (s.absorbByte d).emitted = s.emitted := by
  unfold State.absorbByte; dsimp only; split <;> rfl
@[simp] theorem State.absorbByte_pending (s : State) (d : Byte) : (s.absorbByte d).pending = s.pending := by
  unfold State.absorbByte; dsimp only; split <;> rfl
@[simp] theorem State.absorbByte_tick (s : State) (d : Byte) : (s.absorbByte d).tick = s.tick := by
  unfold State.absorbByte; dsimp only; split <;> rfl

/-! ### squeezeByte -/

@[simp] theorem State.squeezeByte_lanes (s : State) : s.squeezeByte.lanes = if s.needPerm then keccakF s.lanes else s.lanes := by
  simp [State.squeezeByte]
@[simp] theorem State.squeezeByte_buf (s : State) : s.squeezeByte.buf = s.buf := by
  simp [State.squeezeByte]
@[simp] theorem State.squeezeByte_phase (s : State) : s.squeezeByte.phase = s.phase := by
  simp [State.squeezeByte]
@[simp] theorem State.squeezeByte_sqCursor (s : State) : s.squeezeByte.sqCursor = if s.sqCursor = 135#8 then 0#8 else s.sqCursor + 1#8 := by
  simp [State.squeezeByte]
@[simp] theorem State.squeezeByte_needPerm (s : State) : s.squeezeByte.needPerm = decide (s.sqCursor = 135#8) := by
  simp [State.squeezeByte]
@[simp] theorem State.squeezeByte_fault (s : State) : s.squeezeByte.fault = s.fault := by
  simp [State.squeezeByte]
@[simp] theorem State.squeezeByte_errCode (s : State) : s.squeezeByte.errCode = s.errCode := by
  simp [State.squeezeByte]
@[simp] theorem State.squeezeByte_pending (s : State) : s.squeezeByte.pending = s.pending := by
  simp [State.squeezeByte]
@[simp] theorem State.squeezeByte_tick (s : State) : s.squeezeByte.tick = s.tick := by
  simp [State.squeezeByte]

/-- The byte SQUEEZE presents. -/
def State.squeezed (s : State) : Byte :=
  sb (if s.needPerm then keccakF s.lanes else s.lanes) s.sqCursor.toNat

@[simp] theorem State.squeezeByte_rsp (s : State) : s.squeezeByte.rsp = some s.squeezed := by
  simp [State.squeezeByte, State.squeezed]
@[simp] theorem State.squeezeByte_emitted (s : State) :
    s.squeezeByte.emitted = s.emitted ++ [s.squeezed] := by
  simp [State.squeezeByte, State.squeezed]

end Sys2Proof.Machine
end

