-- ==== Sys2Proof/Laws/Exec.lean ====
section
/-! SUPPORT. Everything a command, an illegal word, a transaction and a step can do. A proof about `exec` or
`step` takes the cases from here. -/

namespace Sys2Proof.Machine

/-- A command in a faulted state is refused. -/
theorem exec_of_fault (i : Instr) {s : State} (h : s.fault = true) : exec i s = .next s.refuse := by
  cases i <;> simp [exec, execInit, execAbsorb, execFinalize, execSqueeze, h]

/-- A command in a phase that forbids it raises its cause. -/
theorem exec_of_violation {i : Instr} {s : State} (hf : s.fault = false) (hp : ¬permitted i s.phase) :
    ∃ c, violation i = some c ∧ exec i s = .next (s.raiseFault c) := by
  cases i <;> simp_all [permitted, violation, exec, execAbsorb, execFinalize, execSqueeze]

/-- A command whose phase is right, with the buffer and the cursor in their legal ranges, is performed. -/
theorem exec_of_permitted {i : Instr} {s : State} (hf : s.fault = false) (hp : permitted i s.phase)
    (hb : s.buf.length ≤ 135) (hc : s.sqCursor.toNat ≤ 135) : exec i s = .next (performed i s) := by
  have hb' : s.buf.length < 136 := by omega
  have hc' : s.sqCursor.toNat < 136 := by omega
  cases i <;> simp_all [permitted, performed, exec, execInit, execAbsorb, execFinalize, execSqueeze, rate]

/-- Everything a command can do when it answers a next state. -/
theorem exec_next_cases {i : Instr} {s t : State} (h : exec i s = .next t) :
    (s.fault = true ∧ t = s.refuse) ∨
    (s.fault = false ∧ ¬permitted i s.phase ∧ ∃ c, violation i = some c ∧ t = s.raiseFault c) ∨
    (s.fault = false ∧ permitted i s.phase ∧ t = performed i s) := by
  cases hf : s.fault with
  | true =>
    rw [exec_of_fault i hf] at h
    exact .inl ⟨rfl, by simpa using h.symm⟩
  | false =>
    by_cases hp : permitted i s.phase
    · refine .inr (.inr ⟨rfl, hp, ?_⟩)
      cases i <;> simp_all [permitted, performed, exec, execInit, execAbsorb, execFinalize, execSqueeze]
      all_goals (split at h <;> simp_all)
    · obtain ⟨c, hc, he⟩ := exec_of_violation hf hp
      rw [he] at h
      exact .inr (.inl ⟨rfl, hp, c, hc, by simpa using h.symm⟩)

/-- When a command stops: only outside the legal values of R25 and R28. -/
theorem exec_fault_cases {i : Instr} {s : State} {f : Fault} (h : exec i s = .fault f) :
    136 ≤ s.buf.length ∨ 136 ≤ s.sqCursor.toNat := by
  by_contra hn
  push Not at hn
  cases hf : s.fault with
  | true => rw [exec_of_fault i hf] at h; simp at h
  | false =>
    by_cases hp : permitted i s.phase
    · rw [exec_of_permitted hf hp (by omega) (by omega)] at h; simp at h
    · obtain ⟨c, -, he⟩ := exec_of_violation hf hp
      rw [he] at h; simp at h

/-- No command is refused as not modelled. -/
theorem exec_ne_refused (i : Instr) (s : State) (r : Refusal) : exec i s ≠ .refused r := by
  cases i <;> simp only [exec, execInit, execAbsorb, execFinalize, execSqueeze] <;>
    (repeat' split) <;> simp

theorem issue_of_decode {w : CmdWord} {i : Instr} (h : decode w = some i) (s : State) :
    issue w s = exec i s := by
  simp [issue, h]

theorem issue_of_illegal {w : CmdWord} (h : decode w = none) (s : State) :
    issue w s = .next (illegalWord s) := by
  simp [issue, h]

/-- Everything a step can do when it answers a next state. -/
theorem step_next_cases {s t : State} (h : step s = .next t) :
    (t = hardReset (takeInput s) ∧ (nextInput s).noReset = false) ∨
    (t = (takeInput s).silent ∧ (nextInput s).isIdle = true) ∨
    (∃ w, nextInput s = offerWord w ∧ issue w (takeInput s) = .next t) := by
  unfold step at h
  rcases hn : nextInput s with ⟨rst, v, w⟩ | w
  · cases rst <;> cases v <;>
      simp_all [transact, HostInput.noReset, HostInput.isIdle, offerWord]
  · simp_all [transact, HostInput.noReset]

/-- What a step does, by the host's next input. -/
theorem step_of_offer {s : State} {w : CmdWord} (h : nextInput s = offerWord w) :
    step s = issue w (takeInput s) := by
  simp [step, h, offerWord, transact]

/-- A list of commands run in two parts. -/
theorem execAll_append (a b : List Instr) (s t : State) (h : execAll a s = .next t) :
    execAll (a ++ b) s = execAll b t := by
  induction a generalizing s with
  | nil => simp_all [execAll]
  | cons i rest ih =>
    simp only [execAll, List.cons_append] at h ⊢
    cases he : exec i s with
    | next u => rw [he] at h; exact ih u h
    | fault f => rw [he] at h; simp at h
    | refused r => rw [he] at h; simp at h

/-- One command, then the rest. -/
theorem execAll_cons {i : Instr} {s t : State} (h : exec i s = .next t) (rest : List Instr) :
    execAll (i :: rest) s = execAll rest t := by
  simp [execAll, h]

end Sys2Proof.Machine
end

