-- ==== Sys2Proof/Laws/PerInstr.lean ====
section
/-! SUPPORT. Family TableRow: the word of a command has the fixed bits of its row of the opcode table. -/

namespace Sys2Proof.Laws.TableRow

/-- The word of `i` agrees with its row: `encode i & mask = match` (R65). -/
def Statement (i : Instr) : Prop := encode i &&& rowMask i = rowMatch i

theorem init : Statement .init := by unfold Statement; decide
theorem absorb (d : Byte) : Statement (.absorb d) := by
  unfold Statement encode rowMask rowMatch cmdWord
  revert d; decide
theorem finalize : Statement .finalize := by unfold Statement; decide
theorem squeeze : Statement .squeeze := by unfold Statement; decide

end Sys2Proof.Laws.TableRow
end

