-- ==== Sys2Proof/Tests/Slice0.lean ====
section
/-! SUPPORT. Small tests with expected results taken from spec/95_test_vectors.md (named in each comment), the
well-formedness smoke test, and a witness for the hypotheses of every statement. -/

namespace Sys2Proof.Tests

open Sys2Proof Sys2Proof.Machine

/-! ## States the tests start from -/

/-- `pat(n)`: byte `j` is `j mod 256`. -/
def pat (n : Nat) : List Byte := (List.range n).map (BitVec.ofNat 8)

/-- Absorbing, with `n` bytes of `pat` buffered. -/
def absorbing (n : Nat) : State := { State.reset with buf := pat n }

/-- Squeezing the empty message, the cursor at `c`. -/
def squeezing (c : BitVec 8) : State :=
  { State.reset with
    lanes := keccakF (xorBlock Lanes.zero (padBlock [])), phase := .squeezing, sqCursor := c }

/-- Squeezing the empty message, a permutation owed. -/
def owing : State := { squeezing 0#8 with needPerm := true }

/-- Squeezing, over an all-zero array. -/
def squeezingZero (c : BitVec 8) : State := { State.reset with phase := .squeezing, sqCursor := c }

/-- A faulted state. -/
def faulted : State := { State.reset with fault := true, errCode := 2#3 }

/-- One field of the next state. -/
def field {α : Type} (f : State → α) (o : Host.Outcome State Fault Refusal) : Option α := (nextOf o).map f

/-! ## Well-formedness: an ill-formed program for each check, refused -/

theorem wf_absorb_after_finalize : Program.wf false [.absorb 0x61#8, .finalize, .absorb 0x62#8] = false := by
  decide
theorem wf_finalize_twice : Program.wf false [.finalize, .finalize] = false := by decide
theorem wf_squeeze_before_finalize : Program.wf false [.init, .squeeze] = false := by decide
theorem wf_two_sessions :
    Program.wf false [.finalize, .squeeze, .init, .absorb 0x61#8, .finalize, .squeeze] = true := by decide

/-! ## Decoding: words written out bit by bit from the map of R65, and the words of F4 -/

theorem test_decode_init : decode 0b0000000100000000#16 = some .init := by decide
theorem test_decode_absorb : decode 0b0000001011111111#16 = some (.absorb 0xFF#8) := by decide
theorem test_decode_finalize : decode 0b0000001100000000#16 = some .finalize := by decide
theorem test_decode_squeeze : decode 0b0000010000000000#16 = some .squeeze := by decide
theorem test_decode_illegal :
    decode 0x0000#16 = none ∧ decode 0x0101#16 = none ∧ decode 0x0301#16 = none ∧ decode 0x0401#16 = none ∧
      decode 0x0500#16 = none ∧ decode 0xFFFF#16 = none := by decide
theorem test_decode_table_word : decodeTableWord 16 0x0261 = some (.absorb 0x61#8) := by decide

/-! ## The Permutation Core: P1, P3, P4, P5, P6, P7 -/

/-- P3 (b): the rotation by one wraps bit 63 to bit 0. -/
theorem test_theta_wraps :
    theta (Lanes.zero.setLane 4 0x8000000000000000#64) =
      Lanes.build fun x y =>
        if x = 0 then 0x8000000000000000#64
        else if x = 3 then 1#64
        else if x = 4 ∧ y = 0 then 0x8000000000000000#64
        else 0#64 := by decide +kernel
/-- P4, `ROTL64` alone. -/
theorem test_rotl64 :
    rotl64 0x0123456789ABCDEF#64 4 = 0x123456789ABCDEF0#64 ∧
      rotl64 0x0123456789ABCDEF#64 62 = 0xC048D159E26AF37B#64 ∧
      rotl64 0x0000000000000001#64 63 = 0x8000000000000000#64 := by decide
/-- P4 (a): lanes (2,0), (0,1) and (4,4). -/
theorem test_rho :
    (rho (Lanes.build fun _ _ => 1#64)).at 2 0 = 0x4000000000000000#64 ∧
      (rho (Lanes.build fun _ _ => 1#64)).at 0 1 = 0x0000001000000000#64 ∧
      (rho (Lanes.build fun _ _ => 1#64)).at 4 4 = 0x0000000000004000#64 := by decide +kernel
/-- P5. -/
theorem test_pi :
    (List.range 25).map (pi (Lanes.build fun x y => BitVec.ofNat 64 (x.val + 5 * y.val))).lane =
      [0, 6, 12, 18, 24, 3, 9, 10, 16, 22, 1, 7, 13, 19, 20, 4, 5, 11, 17, 23, 2, 8, 14, 15, 21] := by
  decide +kernel
/-- P6, the row that is not zero. -/
theorem test_chi :
    (List.range 5).map (chi ((((Lanes.zero.setLane 0 0xF0F0F0F0F0F0F0F0#64).setLane 1
        0xFF00FF00FF00FF00#64).setLane 2 0xFFFF0000FFFF0000#64).setLane 4 0xFFFFFFFFFFFFFFFF#64)).lane =
      [0xF00FF0F0F00FF0F0#64, 0xFF00FF00FF00FF00#64, 0x0000FFFF0000FFFF#64, 0#64,
        0xF0FFF0FFF0FFF0FF#64] := by decide +kernel
/-- P7: lanes (0,0), (2,1) and (4,4) after one round. -/
theorem test_round :
    let A := Lanes.build fun x y => BitVec.ofNat 64 (0x0101010101010101 * (x.val + 5 * y.val + 1))
    (rnd A 0).at 0 0 = 0x0808080808080809#64 ∧ (rnd A 0).at 2 1 = 0xF0F0F0F0F0F0F0F0#64 ∧
      (rnd A 0).at 4 4 = 0x6C6C6C6C6C6C6C6C#64 := by decide +kernel
/-- P1: the first, one middle and the last lane. -/
theorem test_keccakf_zero :
    (keccakF Lanes.zero).lane 0 = 0xF1258F7940E1DDE7#64 ∧
      (keccakF Lanes.zero).lane 12 = 0x81A57C16DBCF555F#64 ∧
      (keccakF Lanes.zero).lane 24 = 0xEAF1FF7B5CECA249#64 := by decide +kernel
/-- R96: the walk and the shift register regenerate the tables. -/
theorem test_tables :
    (∀ t : Fin 24, rot (rotWalk t).1 (rotWalk t).2 = rotWalkOffset t) ∧
      (List.range 24).map rcGenerated = rcTable := by decide +kernel

/-! ## Bytes and padding: B1, B4, B5, B6, V2 -/

/-- B1. -/
theorem test_bytes :
    (List.range 8).map (sb (Lanes.zero.setLane 0 0x0807060504030201#64)) = [1, 2, 3, 4, 5, 6, 7, 8] := by
  decide +kernel
/-- B4 and B5: the last lane of the block, 134 and 135 bytes buffered. -/
theorem test_pad_last_bytes :
    (xorBlock Lanes.zero (padBlock (pat 134))).lane 16 = 0x801F858483828180#64 ∧
      (xorBlock Lanes.zero (padBlock (pat 135))).lane 16 = 0x9F86858483828180#64 := by decide +kernel
/-- B6: the domain byte opens a new lane. -/
theorem test_pad_new_lane :
    (xorBlock Lanes.zero (padBlock (pat 8))).lane 0 = 0x0706050403020100#64 ∧
      (xorBlock Lanes.zero (padBlock (pat 8))).lane 1 = 0x000000000000001F#64 ∧
      (xorBlock Lanes.zero (padBlock (pat 8))).lane 16 = 0x8000000000000000#64 := by decide +kernel
/-- V2: the first eight bytes of SHAKE256 of "abc". -/
theorem test_shake256_abc :
    shake256 [0x61#8, 0x62#8, 0x63#8] 8 = [0x48, 0x33, 0x66, 0x60, 0x13, 0x60, 0xa8, 0x77] := by decide +kernel

/-- V12 (R118): one input bit flipped changes 560 of the 1088 bits of the first window. -/
theorem test_avalanche :
    ((List.range rateLanes).map fun i =>
      (List.range 64).countP
        ((finalArray [0x61#8, 0x62#8, 0x63#8]).lane i ^^^ (finalArray [0x60#8, 0x62#8, 0x63#8]).lane i).getLsbD).sum
      = 560 := by decide +kernel

/-! ## The commands, one step each -/

/-- G6 (a): INIT discards buffered bytes. -/
theorem test_init_discards_the_buffer : field (·.buf) (exec .init (absorbing 2)) = some [] := by decide
/-- R108: INIT leaves Squeezing, and clears an owed permutation. -/
theorem test_init_leaves_squeezing :
    field (fun t => (t.phase, t.needPerm, t.lanes.lane 0)) (exec .init owing) = some (.absorbing, false, 0#64) := by
  decide +kernel
/-- R102, its example. -/
theorem test_absorb_first_byte :
    field (fun t => (t.buf, t.bufLen, t.lanes.lane 0)) (exec (.absorb 0x61#8) State.reset) =
      some ([0x61#8], 1#8, 0#64) := by decide
/-- G3: the 136th ABSORB. -/
theorem test_absorb_136th_byte :
    field (fun t => (t.buf, t.lanes.lane 0, t.lanes.lane 16, t.lanes.lane 24))
        (exec (.absorb 0x87#8) (absorbing 135)) =
      some ([], 0xC9834334D2362F28#64, 0x6AA4E537E9AFEEA1#64, 0x9513375F3F9B8919#64) := by decide +kernel
/-- G1: the state after FINALIZE of the empty message, through a step that fetches the word. -/
theorem test_finalize_empty :
    field (fun t => (t.phase, t.lanes.lane 0, t.lanes.lane 24)) (step (State.reset.withFetchWord 16 0x0300)) =
      some (.squeezing, 0x138DA80B2BDDB946#64, 0xEC77442301D68B89#64) := by decide +kernel
/-- V5: the 135-byte message, whose first eight output bytes are `c4 5d ae 62 4a d8 a2 f5`. -/
theorem test_finalize_135 :
    field (fun t => t.lanes.lane 0) (exec .finalize (absorbing 135)) = some 0xF5A2D84A62AE5DC4#64 := by
  decide +kernel
/-- G4: the 136th SQUEEZE emits `dd`, and owes a permutation it does not run. -/
theorem test_squeeze_136th :
    field (fun t => (t.rsp, t.sqCursor, t.needPerm, t.lanes.lane 0)) (exec .squeeze (squeezing 135#8)) =
      some (some 0xDD#8, 0#8, true, 0x138DA80B2BDDB946#64) := by decide +kernel
/-- G4: the 137th SQUEEZE runs it and emits `94`. -/
theorem test_squeeze_137th :
    field (fun t => (t.emitted, t.sqCursor, t.needPerm, t.lanes.lane 0)) (exec .squeeze owing) =
      some ([0x94#8], 1#8, false, 0x622D8A46EC6A3B94#64) := by decide +kernel

/-! ## Faults and the port -/

/-- F1, F2, F3: the codes of the three contract violations. -/
theorem test_violation_codes :
    field (fun t => (t.fault, t.errCode)) (exec .squeeze State.reset) = some (true, 2#3) ∧
      field (fun t => (t.fault, t.errCode)) (exec (.absorb 0x61#8) (squeezingZero 0#8)) = some (true, 1#3) ∧
      field (fun t => (t.fault, t.errCode)) (exec .finalize (squeezingZero 0#8)) = some (true, 3#3) := by decide
/-- F4b: an illegal word. -/
theorem test_illegal_word :
    field (fun t => (t.fault, t.errCode, t.phase)) (issue 0x0101#16 State.reset) = some (true, 4#3, .absorbing) := by
  decide
/-- F5: INIT is refused while faulted, and the code stays. -/
theorem test_faulted_refuses_init :
    field (fun t => (t.fault, t.errCode)) (issue 0x0100#16 faulted) = some (true, 2#3) := by decide
/-- R150: a word offered in a reset cycle is not issued; an abandoned command leaves nothing. -/
theorem test_reset_cycle :
    field (fun t => (t.fault, t.errCode, t.buf)) (step (faulted.withInputs [.cycle true true 0x0261#16])) =
        some (false, 0#3, []) ∧
      field (fun t => (t.phase, t.buf, t.rsp)) (step ((absorbing 3).withInputs [.abandoned 0x0300#16])) =
        some (.absorbing, [], none) := by decide
/-- R71, its example, with comments. -/
theorem test_assembler :
    assemble [['I', 'N', 'I', 'T', ' ', ' ', ';', ' ', '0'], [';'],
        ['A', 'B', 'S', 'O', 'R', 'B', ' ', '0', 'x', '6', '1'], ['F', 'I', 'N', 'A', 'L', 'I', 'Z', 'E'],
        ['S', 'Q', 'U', 'E', 'E', 'Z', 'E']] = some [0x0100#16, 0x0261#16, 0x0300#16, 0x0400#16] := by decide +kernel

/-! ## Witnesses: for each statement with hypotheses, a state and operands that meet them, clause by clause -/

theorem inv_reset : State.reset.Inv := by constructor <;> decide
theorem inv_absorbing_135 : (absorbing 135).Inv := by constructor <;> decide +kernel
theorem inv_squeezing_135 : (squeezingZero 135#8).Inv := by constructor <;> decide
theorem inv_owing : owing.Inv := by constructor <;> decide
theorem inv_faulted : faulted.Inv := by constructor <;> decide

theorem wit_DecodeAndEncodeAreInverse : decode 0x02FF#16 = some (.absorb 0xFF#8) := by decide
theorem wit_OpcodePatternsAreDisjoint :
    0x0280#16 &&& rowMask (.absorb 0x61#8) = rowMatch (.absorb 0x61#8) ∧
      sameOpcode (.absorb 0x61#8) (.absorb 0x80#8) ∧ decode 0x0280#16 = some (.absorb 0x80#8) :=
  ⟨by decide, trivial, by decide⟩
theorem wit_IllegalWordsFault :
    decode 0x0500#16 = none ∧ decode 0x01FF#16 = none ∧ decode 0xFFFF#16 = none ∧ State.reset.fault = false := by
  decide
theorem wit_AssemblerRoundTrip :
    (∀ c ∈ [' ', ' '], c = ' ') ∧ parseLine [' ', ' ', ';', 'I', 'N', 'I', 'T'] = some [] :=
  ⟨by simp, by decide +kernel⟩
theorem wit_StepRunsTheIssuedCommand :
    (State.reset.withFetchWord 16 0x02FF).pending = .cycle false true 0x02FF#16 :: [] ∧
      decode 0x02FF#16 = some (.absorb 0xFF#8) := by decide
theorem wit_ChecksAreMadeInOrder :
    faulted.fault = true ∧ (State.reset.fault = false ∧ decode 0x0500#16 = none) ∧
      (decode 0x0400#16 = some .squeeze ∧ ¬permitted .squeeze State.reset.phase) ∧
      ((absorbing 135).fault = false ∧ decode 0x02FF#16 = some (.absorb 0xFF#8) ∧
        permitted (.absorb 0xFF#8) (absorbing 135).phase ∧ (absorbing 135).Inv) :=
  ⟨rfl, ⟨rfl, by decide⟩, ⟨by decide, by simp [permitted, State.reset]⟩, rfl, by decide, rfl, inv_absorbing_135⟩
theorem wit_IdleCycleChangesNothing :
    (absorbing 3).pending = [] ∧
      ((absorbing 3).withInputs [.cycle false false 0xFFFF#16]).pending = [.cycle false false 0xFFFF#16] := by
  decide
theorem wit_ChunksAndIdleCyclesAreInvisible :
    State.reset.Inv ∧
      [offerWord 0x0261#16].filter (fun h => !h.isIdle) =
        [idleInput, offerWord 0x0261#16, idleInput].filter (fun h => !h.isIdle) := ⟨inv_reset, by decide⟩
theorem wit_StepsRunTheCommandStreamInOrder :
    ∃ t, execAll [.absorb 0x61#8, .init, .squeeze] State.reset = .next t ∧ t.fault = true := ⟨_, rfl, rfl⟩
theorem wit_HardwareResetGivesResetValues :
    (faulted.withInputs [.cycle true true 0x0100#16]).pending = .cycle true true 0x0100#16 :: [] ∧
      (owing.withInputs [.abandoned 0x0400#16]).pending = .abandoned 0x0400#16 :: [] := ⟨rfl, rfl⟩
theorem wit_InitAndResetAgree : owing.fault = false ∧ faulted.fault = true := ⟨rfl, rfl⟩
theorem wit_OnlyCompletedSqueezeResponds :
    (∃ t, exec .squeeze (squeezingZero 135#8) = .next t ∧ t.rsp = some 0#8) ∧
      (∃ t, exec .squeeze faulted = .next t ∧ t.rsp = none) ∧
      ∃ t, step (owing.withInputs [.abandoned 0x0400#16]) = .next t ∧
        (nextInput (owing.withInputs [.abandoned 0x0400#16])).noReset = false :=
  ⟨⟨_, rfl, by decide⟩, ⟨_, rfl, rfl⟩, _, rfl, rfl⟩
theorem wit_EveryStepCompletes : (squeezingZero 135#8).Inv := inv_squeezing_135
theorem wit_StateBytesAreLittleEndian :
    199 < 200 ∧ 24 < laneCount ∧
      (Lanes.zero.setLane 0 0x0807060504030201#64).lane 0 = 0x0807060504030201#64 := by decide
theorem wit_SbxorChangesOneByte :
    199 < 200 ∧ sb (sbXor Lanes.zero 199 0xFF#8) 199 = 0xFF#8 ∧ sb (sbXor Lanes.zero 199 0xFF#8) 198 = 0#8 := by
  decide
theorem wit_XorblockIsLanewise :
    (pat 136).length = rate ∧ 135 < rate ∧ 16 < rateLanes ∧ rateLanes ≤ 24 ∧ 24 < laneCount ∧
      (List.range rate).reverse.Perm (List.range rate) :=
  ⟨by decide +kernel, by decide, by decide, by decide, by decide, List.reverse_perm _⟩
theorem wit_BitsAreLeastSignificantFirst : 24 < laneCount ∧ 63 < 64 ∧ ds.getLsbD 4 = true := by decide
theorem wit_RotationMovesBitsUp :
    63 ≤ 63 ∧ 63 < 64 ∧ 1 ≤ 1 ∧ (rotl64 0x8000000000000000#64 63).getLsbD ((63 + 63) % 64) = true := by decide
theorem wit_StepMappingCornerCases :
    ∀ x, columnParity ((Lanes.zero.setLane 0 1#64).setLane 5 1#64) x = 0#64 := by decide +kernel
theorem wit_PiRelabelsTheLanes : 24 < laneCount ∧ piTable.getD 24 0 = 21 := by decide
theorem wit_RhoThenPiInOneStep :
    let A := Lanes.build fun x y => BitVec.ofNat 64 (x.val + 5 * y.val + 1)
    ∀ x y : Fin 5, (pi (rho A)).at y (2 * x + 3 * y) = rotl64 (A.at x y) (rot x y) := by decide +kernel
theorem wit_SlicesAreIndependent :
    let B := Lanes.zero.setLane 7 0x20#64
    Lanes.zero ≠ B ∧ (∀ x y, (Lanes.zero.at x y).getLsbD 0 = (B.at x y).getLsbD 0) ∧
      ∀ x y, (Lanes.zero.at x y).getLsbD ((0 + 63) % 64) = (B.at x y).getLsbD ((0 + 63) % 64) := by
  decide +kernel
theorem wit_InitStartsAFreshSession :
    owing.fault = false ∧ faulted.fault = true ∧ owing.phase = .squeezing ∧
      ∃ t, exec .init owing = .next t ∧ t.phase = .absorbing := ⟨rfl, rfl, rfl, _, rfl, rfl⟩
theorem wit_AbsorbBuffersOrAbsorbsTheBlock :
    ((absorbing 134).fault = false ∧ (absorbing 134).phase = .absorbing ∧ (absorbing 134).buf.length ≤ 134) ∧
      ((absorbing 135).fault = false ∧ (absorbing 135).phase = .absorbing ∧ (absorbing 135).buf.length = 135) ∧
      (owing.fault = false ∧ owing.phase = .squeezing) ∧ faulted.fault = true := by decide +kernel
theorem wit_PadblockBytes :
    ([] : List Byte).length ≤ 135 ∧ (pat 134).length ≤ 134 ∧ (pat 135).length = 135 := by decide +kernel
theorem wit_FinalizePadsAndPermutesOnce :
    ((absorbing 135).fault = false ∧ (absorbing 135).phase = .absorbing ∧ (absorbing 135).buf.length ≤ 135) ∧
      (owing.fault = false ∧ owing.phase = .squeezing) ∧ faulted.fault = true := by decide +kernel
theorem wit_SqueezeDeliversTheNextByte :
    ((squeezingZero 135#8).fault = false ∧ (squeezingZero 135#8).phase = .squeezing ∧
        (squeezingZero 135#8).sqCursor.toNat ≤ 135) ∧
      (owing.fault = false ∧ owing.needPerm = true ∧ owing.phase = .squeezing ∧ owing.sqCursor.toNat ≤ 135) ∧
      State.reset.phase = .absorbing ∧ faulted.fault = true := by decide
theorem wit_NeedPermIsSetAndCleared :
    ((squeezingZero 135#8).Inv ∧ (squeezingZero 135#8).needPerm = false ∧
        ∃ t, exec .squeeze (squeezingZero 135#8) = .next t ∧ t.needPerm = true) ∧
      (owing.Inv ∧ owing.fault = false ∧ owing.needPerm = true) ∧
      ((absorbing 135).Inv ∧ (absorbing 135).fault = false ∧ (absorbing 135).phase = .absorbing) :=
  ⟨⟨inv_squeezing_135, rfl, _, rfl, rfl⟩, ⟨inv_owing, rfl, rfl⟩, inv_absorbing_135, rfl, rfl⟩
theorem wit_InitAndFinalizeFrame :
    (∃ t, exec .init owing = .next t ∧ permitted .init owing.phase) ∧
      (∃ t, exec .finalize (absorbing 135) = .next t ∧ permitted .finalize (absorbing 135).phase) ∧
      ∃ t, exec .finalize owing = .next t ∧ ¬permitted .finalize owing.phase :=
  ⟨⟨_, rfl, trivial⟩, ⟨_, exec_of_permitted rfl rfl inv_absorbing_135.bufShort (by decide), rfl⟩,
    _, rfl, by simp [permitted, owing, squeezing]⟩
theorem wit_AbsorbFrame :
    (∃ t, exec (.absorb 0xFF#8) (absorbing 134) = .next t ∧ permutations (.absorb 0xFF#8) (absorbing 134) = 0 ∧
        133 < (absorbing 134).buf.length) ∧
      ∃ t, exec (.absorb 0xFF#8) (absorbing 135) = .next t ∧ (absorbing 135).phase = .absorbing :=
  ⟨⟨_, exec_of_permitted rfl rfl (by decide +kernel) (by decide), by decide +kernel, by decide +kernel⟩,
    _, exec_of_permitted rfl rfl inv_absorbing_135.bufShort (by decide), rfl⟩
theorem wit_SqueezeFrame :
    ∃ t, exec .squeeze (squeezingZero 135#8) = .next t ∧ (squeezingZero 135#8).needPerm = false ∧
      (squeezingZero 135#8).phase = .squeezing := ⟨_, rfl, rfl, rfl⟩
theorem wit_CapacityIsOnlyPermutedOrInitialised :
    (rateLanes ≤ 24 ∧ 24 < laneCount) ∧
      (∃ t, exec .squeeze (squeezingZero 135#8) = .next t ∧ t.rsp = some 0#8 ∧
        permutations .squeeze (squeezingZero 135#8) = 0) :=
  ⟨by decide, _, rfl, by decide, by decide⟩
theorem wit_CapacityStaysHidden :
    let C := Lanes.zero.setLane 24 1#64
    (squeezingZero 135#8).needPerm = false ∧
      (∀ i, i < rateLanes → C.lane i = (squeezingZero 135#8).lanes.lane i) ∧
      C.lane 24 ≠ (squeezingZero 135#8).lanes.lane 24 ∧
      ∃ t, exec .squeeze (squeezingZero 135#8) = .next t := ⟨rfl, by decide, by decide, _, rfl⟩
theorem wit_ContractViolationsExactly : owing.fault = false ∧ State.reset.fault = false := ⟨rfl, rfl⟩
theorem wit_CauseCodes :
    (owing.fault = false ∧ owing.phase = .squeezing) ∧
      (State.reset.fault = false ∧ State.reset.phase = .absorbing ∧ decode 0x0000#16 = none) ∧
      (State.reset.Inv ∧ step State.reset = .next { State.reset with tick := 1 }) :=
  ⟨⟨rfl, rfl⟩, ⟨rfl, rfl, by decide⟩, inv_reset, rfl⟩
theorem wit_FaultEntryIsPrecise :
    State.reset.fault = false ∧ ∃ t, issue 0x0400#16 State.reset = .next t ∧ t.fault = true := ⟨rfl, _, rfl, rfl⟩
theorem wit_FaultedEngineRefusesEveryWord :
    faulted.fault = true ∧ (∀ h ∈ [offerWord 0x0100#16, idleInput, offerWord 0xFFFF#16], h.noReset = true) := by
  decide
theorem wit_OnlyResetClearsTheLatch :
    (∃ t, step (faulted.withInputs [offerWord 0x0100#16]) = .next t ∧
        (nextInput (faulted.withInputs [offerWord 0x0100#16])).noReset = true) ∧
      ∃ t, step (faulted.withInputs [.abandoned 0x0100#16]) = .next t ∧
        (nextInput (faulted.withInputs [.abandoned 0x0100#16])).noReset = false :=
  ⟨⟨_, rfl, rfl⟩, _, rfl, rfl⟩
theorem wit_PhaseTransitions :
    ((absorbing 135).Inv ∧ (absorbing 135).fault = false ∧ (absorbing 135).phase = .absorbing) ∧
      (owing.Inv ∧ owing.fault = false ∧ owing.phase = .squeezing) ∧ decode 0x0000#16 = none ∧
      faulted.fault = true :=
  ⟨⟨inv_absorbing_135, rfl, rfl⟩, ⟨inv_owing, rfl, rfl⟩, by decide, rfl⟩
theorem wit_WellFormedProgramsNeverFault : owing.Inv ∧ owing.fault = false := ⟨inv_owing, rfl⟩
theorem wit_StepKeepsTheInvariant :
    (squeezingZero 135#8).Inv ∧
      ∃ t, step ((squeezingZero 135#8).withInputs [offer .squeeze]) = .next t ∧ t.needPerm = true :=
  ⟨inv_squeezing_135, _, rfl, rfl⟩
theorem wit_UpdateIsTheSliceUpdate :
    (absorbing 135).fault = false ∧ (absorbing 135).phase = .absorbing ∧ (absorbing 135).buf.length ≤ 135 :=
  ⟨rfl, rfl, inv_absorbing_135.bufShort⟩
theorem wit_ReadDeliversTheStream :
    ((squeezing 135#8).fault = false ∧ (squeezing 135#8).phase = .squeezing ∧
        (squeezing 135#8).sqCursor.toNat ≤ 135 ∧ (squeezing 135#8).needPerm = false) ∧
      (owing.fault = false ∧ owing.phase = .squeezing ∧ owing.sqCursor.toNat ≤ 135 ∧ owing.needPerm = true ∧
        owing.sqCursor = 0#8) := by decide
theorem wit_SessionComputesShake256 : owing.fault = false ∧ (absorbing 135).fault = false := ⟨rfl, rfl⟩
theorem wit_OutputIsExtendable : owing.fault = false ∧ 136 < 137 := ⟨rfl, by decide⟩
theorem wit_CommandsAreDeterministic :
    State.SameEngine State.reset { State.reset with emitted := [0xAA#8], tick := 7 } ∧
      issue 0x0100#16 State.reset = .next State.reset ∧ State.reset.fault = false ∧ owing.fault = false :=
  ⟨by constructor <;> rfl, rfl, rfl, rfl⟩
theorem wit_PermutationCount : owing.fault = false := rfl
theorem wit_BoundaryScenario : (pat 136).length = 136 ∧ owing.fault = false := ⟨by decide +kernel, rfl⟩
theorem wit_TimingIsIndependentOfData :
    sameOpcode (.absorb 0x00#8) (.absorb 0xFF#8) ∧
      State.SameControl (absorbing 135) { absorbing 135 with buf := List.replicate 135 0xFF#8 } ∧
      (∃ t, exec (.absorb 0x00#8) (absorbing 135) = .next t) ∧
      List.Forall₂ sameOpcode [.absorb 0x00#8, .finalize] [.absorb 0xFF#8, .finalize] :=
  ⟨trivial, by constructor <;> decide +kernel,
    ⟨_, exec_of_permitted rfl rfl inv_absorbing_135.bufShort (by decide)⟩, .cons trivial (.cons trivial .nil)⟩

end Sys2Proof.Tests
end

section
/-! PROOFS. Timing (70_reset_and_hazards.md R159): what a command takes over the two open parameters. -/

namespace Sys2Proof

/-- R7: `PERM_CYCLES` is at least 1. -/
theorem Config.one_le_permCycles : 1 ≤ Config.permCycles := Nat.succ_pos _

/-- R7: `CMD_CYCLES` is at least 1. -/
theorem Config.one_le_cmdCycles : 1 ≤ Config.cmdCycles := Nat.succ_pos _

end Sys2Proof

namespace Sys2Proof.Machine

/-- R113: no command runs more than one permutation. -/
theorem permutations_eq_zero_or_one (i : Instr) (s : State) : permutations i s = 0 ∨ permutations i s = 1 := by
  cases i with
  | init => exact .inl rfl
  | absorb d => exact (ite_eq_or_eq _ 1 0).symm
  | finalize => exact (ite_eq_or_eq _ 1 0).symm
  | squeeze => exact (ite_eq_or_eq _ 1 0).symm

theorem commandCycles_of_permutations_eq_zero {i : Instr} {s : State} (h : permutations i s = 0) :
    commandCycles i s = Config.cmdCycles := by
  simp [commandCycles, h]

theorem commandCycles_of_permutations_eq_one {i : Instr} {s : State} (h : permutations i s = 1) :
    commandCycles i s = Config.cmdCycles + Config.permCycles := by
  simp [commandCycles, h]

end Sys2Proof.Machine

namespace Sys2Proof.Proofs
open Sys2Proof.Machine

/-- Settles O59: a command permutes at most once, and each of the two counts fixes its time. -/
theorem commandCycles : Obligations.CommandCycles :=
  ⟨Config.one_le_cmdCycles, Config.one_le_permCycles, fun i s =>
    (permutations_eq_zero_or_one i s).imp
      (fun h => ⟨h, commandCycles_of_permutations_eq_zero h⟩)
      (fun h => ⟨h, commandCycles_of_permutations_eq_one h⟩)⟩

end Sys2Proof.Proofs
end

section
/-! PROOFS. The state (10_state.md): the invariants between commands (R32), and what the commands leave
unchanged (R22, R23, R26, R29). -/

namespace Sys2Proof.Machine

variable {i : Instr} {s t : State}

/-! ### What a performed command does to the latch and the host's fields -/

@[simp] theorem performed_fault (i : Instr) (s : State) : (performed i s).fault = s.fault := by
  cases i <;> simp [performed]

@[simp] theorem performed_errCode (i : Instr) (s : State) : (performed i s).errCode = s.errCode := by
  cases i <;> simp [performed]

@[simp] theorem performed_pending (i : Instr) (s : State) : (performed i s).pending = s.pending := by
  cases i <;> simp [performed]

@[simp] theorem performed_tick (i : Instr) (s : State) : (performed i s).tick = s.tick := by
  cases i <;> simp [performed]

/-- Only SQUEEZE adds to the output stream. -/
theorem performed_emitted (hi : i ≠ .squeeze) (s : State) : (performed i s).emitted = s.emitted := by
  cases i with
  | init => exact State.newSession_emitted s
  | absorb d => exact State.absorbByte_emitted s d
  | finalize => exact State.finish_emitted s
  | squeeze => exact absurd rfl hi

/-- Only SQUEEZE presents a response (R63). -/
theorem performed_rsp (hi : i ≠ .squeeze) (s : State) : (performed i s).rsp = none := by
  cases i with
  | init => exact State.newSession_rsp s
  | absorb d => exact State.absorbByte_rsp s d
  | finalize => exact State.finish_rsp s
  | squeeze => exact absurd rfl hi

/-! ### Frames of a command, from the three things it can do -/

/-- No command touches the host's fields. -/
theorem exec_sameHost (h : exec i s = .next t) : State.SameHost s t := by
  obtain ⟨-, rfl⟩ | ⟨-, -, c, -, rfl⟩ | ⟨-, -, rfl⟩ := exec_next_cases h
  · exact ⟨rfl, rfl⟩
  · exact ⟨rfl, rfl⟩
  · exact ⟨performed_pending i s, performed_tick i s⟩

theorem exec_emitted_of_ne_squeeze (h : exec i s = .next t) (hi : i ≠ .squeeze) : t.emitted = s.emitted := by
  obtain ⟨-, rfl⟩ | ⟨-, -, c, -, rfl⟩ | ⟨-, -, rfl⟩ := exec_next_cases h
  · rfl
  · rfl
  · exact performed_emitted hi s

theorem exec_latch_of_permitted (h : exec i s = .next t) (hp : permitted i s.phase) :
    t.fault = s.fault ∧ t.errCode = s.errCode := by
  obtain ⟨-, rfl⟩ | ⟨-, hn, -⟩ | ⟨-, -, rfl⟩ := exec_next_cases h
  · exact ⟨rfl, rfl⟩
  · exact absurd hp hn
  · exact ⟨performed_fault i s, performed_errCode i s⟩

/-- When ABSORB runs `PERMUTE()`: on the byte that fills the buffer (R102). -/
theorem permutations_absorb_eq_zero_iff (d : Byte) (hf : s.fault = false) (hp : s.phase = .absorbing) :
    permutations (.absorb d) s = 0 ↔ s.buf.length + 1 ≠ rate := by
  simp [permutations, hf, hp]

theorem permutations_finalize_eq_one (hf : s.fault = false) (hp : s.phase = .absorbing) :
    permutations .finalize s = 1 := by
  simp [permutations, hf, hp]

/-- When SQUEEZE runs `PERMUTE()`: when one is owed (R104). -/
theorem permutations_squeeze_eq_zero_iff (hf : s.fault = false) (hp : s.phase = .squeezing) :
    permutations .squeeze s = 0 ↔ s.needPerm = false := by
  simp [permutations, hf, hp]

/-- Only `PERMUTE()` and INIT write the state array (R22). -/
theorem exec_lanes_of_permutations_eq_zero (h : exec i s = .next t) (hi : i ≠ .init)
    (hn : permutations i s = 0) : t.lanes = s.lanes := by
  obtain ⟨-, rfl⟩ | ⟨-, -, c, -, rfl⟩ | ⟨hf, hp, rfl⟩ := exec_next_cases h
  · rfl
  · rfl
  · cases i with
    | init => exact absurd rfl hi
    | absorb d =>
      have hshort := (permutations_absorb_eq_zero_iff d hf hp).mp hn
      simp [performed, State.absorbByte_short s d hshort]
    | finalize => simp [permutations_finalize_eq_one hf hp] at hn
    | squeeze =>
      have hno := (permutations_squeeze_eq_zero_iff hf hp).mp hn
      simp [performed, hno]

/-- An unfaulted SQUEEZE in Squeezing is performed exactly when the cursor is in the window (R104). -/
theorem exec_squeeze_eq_next_iff (hf : s.fault = false) (hp : s.phase = .squeezing) :
    exec .squeeze s = .next t ↔ s.sqCursor.toNat < rate ∧ s.squeezeByte = t := by
  by_cases hc : s.sqCursor.toNat < 136 <;> simp [exec, execSqueeze, hf, hp, hc]

/-- A response comes from a performed SQUEEZE only. -/
theorem squeeze_of_exec_rsp {b : Byte} (h : exec i s = .next t) (hb : t.rsp = some b) :
    i = .squeeze ∧ s.sqCursor.toNat < rate ∧ t = s.squeezeByte := by
  obtain ⟨-, rfl⟩ | ⟨-, -, c, -, rfl⟩ | ⟨hf, hp, rfl⟩ := exec_next_cases h
  · simp at hb
  · simp at hb
  · by_cases hi : i = .squeeze
    · subst hi
      obtain ⟨hc, -⟩ := (exec_squeeze_eq_next_iff hf hp).mp h
      exact ⟨rfl, hc, rfl⟩
    · simp [performed_rsp hi] at hb

/-- ABSORB leaves the sequencing state (R102). -/
theorem exec_absorb_sequencing {d : Byte} (h : exec (.absorb d) s = .next t) :
    t.phase = s.phase ∧ t.sqCursor = s.sqCursor ∧ t.needPerm = s.needPerm := by
  obtain ⟨-, rfl⟩ | ⟨-, -, c, -, rfl⟩ | ⟨-, -, rfl⟩ := exec_next_cases h
  · exact ⟨rfl, rfl, rfl⟩
  · exact ⟨rfl, rfl, rfl⟩
  · exact ⟨s.absorbByte_phase d, s.absorbByte_sqCursor d, s.absorbByte_needPerm d⟩

/-- An ABSORB that does not permute appends, so the bytes buffered before it stay in place (R26). -/
theorem exec_absorb_keeps_buffered_bytes {d : Byte} (h : exec (.absorb d) s = .next t)
    (hn : permutations (.absorb d) s = 0) {j : Nat} (hj : j < s.buf.length) :
    t.buf.getD j 0#8 = s.buf.getD j 0#8 := by
  obtain ⟨-, rfl⟩ | ⟨-, -, c, -, rfl⟩ | ⟨hf, hp, rfl⟩ := exec_next_cases h
  · rfl
  · rfl
  · have hshort := (permutations_absorb_eq_zero_iff d hf hp).mp hn
    rw [performed, State.absorbByte_short s d hshort]
    exact List.getD_append _ _ _ _ hj

/-! ### The rate and the capacity lanes (R22) -/

theorem sbXor_lane_of_ne (A : Lanes) (b : Byte) {k j : Nat} (hk : k < 200) (hj : j < laneCount)
    (hne : j ≠ k / 8) : (sbXor A k b).lane j = A.lane j := by
  have hi : k / 8 < laneCount := by simp only [laneCount_eq]; omega
  simp [sbXor, Lanes.lane_setLane _ _ hi hj, hne]

/-- XORing the first `n` bytes of a block into the rate leaves every capacity lane. -/
theorem foldl_sbXor_capacity_lane (blk : List Byte) {i n : Nat} (hi : rateLanes ≤ i) (hi' : i < laneCount)
    (hn : n ≤ rate) (A : Lanes) :
    ((List.range n).foldl (fun A j => sbXor A j (blk.getD j 0#8)) A).lane i = A.lane i := by
  induction n with
  | zero => rfl
  | succ n ih =>
    have hn' : n < 136 := hn
    have hne : i ≠ n / 8 := by simp only [rateLanes_eq] at hi; omega
    rw [List.range_succ, List.foldl_append, List.foldl_cons, List.foldl_nil,
      sbXor_lane_of_ne _ _ (by omega) hi' hne, ih (by omega)]

theorem xorBlock_capacity_lane (A : Lanes) (blk : List Byte) {i : Nat} (hi : rateLanes ≤ i)
    (hi' : i < laneCount) : (xorBlock A blk).lane i = A.lane i :=
  foldl_sbXor_capacity_lane blk hi hi' le_rfl A

theorem div_eight_lt_rateLanes_iff (k : Nat) : k / 8 < rateLanes ↔ k < rate :=
  Nat.div_lt_iff_lt_mul (by decide)

/-- A window byte is read from the rate lanes alone. -/
theorem sb_congr_of_rate_lanes {A B : Lanes} (h : ∀ i, i < rateLanes → A.lane i = B.lane i) {k : Nat}
    (hk : k < rate) : sb A k = sb B k := by
  simp [sb, h (k / 8) ((div_eight_lt_rateLanes_iff k).mpr hk)]

/-- While no permutation is owed, SQUEEZE presents the same byte whatever the capacity lanes hold. -/
theorem squeezed_congr_of_rate_lanes {C : Lanes} (hn : s.needPerm = false) (hc : s.sqCursor.toNat < rate)
    (hC : ∀ i, i < rateLanes → C.lane i = s.lanes.lane i) :
    State.squeezed { s with lanes := C } = s.squeezed := by
  simpa [State.squeezed, hn] using sb_congr_of_rate_lanes hC hc

/-! ### Each operation keeps the invariants (R32) -/

/-- The invariants speak of the architectural elements alone. -/
theorem State.Inv.of_sameEngine (hs : s.Inv) (h : State.SameEngine s t) : t.Inv := by
  obtain ⟨-, hbuf, hphase, hcursor, hneed, hfault, hcode⟩ := h
  obtain ⟨bufShort, cursorShort, absorbing, squeezing, owed, latch, codeUsed⟩ := hs
  constructor
  · rwa [hbuf]
  · rwa [hcursor]
  · rwa [hphase, hcursor, hneed]
  · rwa [hphase, hbuf]
  · rwa [hneed, hphase, hcursor]
  · rwa [hfault, hcode]
  · rwa [hcode]

theorem State.Inv.silent (hs : s.Inv) : s.silent.Inv :=
  hs.of_sameEngine (by constructor <;> rfl)

theorem State.Inv.refuse (hs : s.Inv) : s.refuse.Inv :=
  hs.of_sameEngine (by constructor <;> rfl)

theorem State.Inv.takeInput (hs : s.Inv) : (takeInput s).Inv :=
  hs.of_sameEngine (by constructor <;> rfl)

theorem State.Inv.withInputs (hs : s.Inv) (inputs : List HostInput) : (s.withInputs inputs).Inv :=
  hs.of_sameEngine (by constructor <;> rfl)

theorem State.inv_reset : State.reset.Inv := by
  constructor <;> decide

/-- Hardware reset gives a legal state whatever it interrupts (R150). -/
theorem inv_hardReset (s : State) : (hardReset s).Inv :=
  State.inv_reset.of_sameEngine (by constructor <;> rfl)

theorem Cause.code_ne_zero (c : Cause) : c.code ≠ 0#3 := by
  cases c <;> decide

theorem Cause.code_le_four (c : Cause) : c.code.toNat ≤ 4 := by
  cases c <;> decide

/-- Taking a fault writes the latch and its code together (R134). -/
theorem State.Inv.raiseFault (hs : s.Inv) (c : Cause) : (s.raiseFault c).Inv where
  bufShort := hs.bufShort
  cursorShort := hs.cursorShort
  absorbing := hs.absorbing
  squeezing := hs.squeezing
  owed := hs.owed
  latch := by simp [c.code_ne_zero]
  codeUsed := c.code_le_four

theorem State.Inv.newSession (hs : s.Inv) : s.newSession.Inv where
  bufShort := by simp
  cursorShort := by simp
  absorbing := by simp
  squeezing := by simp
  owed := by simp
  latch := hs.latch
  codeUsed := hs.codeUsed

theorem State.Inv.finish (hs : s.Inv) : s.finish.Inv where
  bufShort := by simp
  cursorShort := by simp
  absorbing := by simp
  squeezing := by simp
  owed := by simp
  latch := hs.latch
  codeUsed := hs.codeUsed

/-- ABSORB empties the buffer when it would reach 136 bytes (R102). -/
theorem absorbByte_buf_length_le (hb : s.buf.length ≤ 135) (d : Byte) : (s.absorbByte d).buf.length ≤ 135 := by
  by_cases h : s.buf.length + 1 = rate
  · simp [State.absorbByte_full s d h]
  · have hne : s.buf.length + 1 ≠ 136 := h
    simp only [State.absorbByte_short s d h, State.silent_buf, List.length_append, List.length_singleton]
    omega

theorem State.Inv.absorbByte (hs : s.Inv) (hp : s.phase = .absorbing) (d : Byte) : (s.absorbByte d).Inv where
  bufShort := absorbByte_buf_length_le hs.bufShort d
  cursorShort := by simpa using hs.cursorShort
  absorbing := by simpa using hs.absorbing
  squeezing := by simp [hp]
  owed := by simpa using hs.owed
  latch := by simpa using hs.latch
  codeUsed := by simpa using hs.codeUsed

/-- The cursor returns to 0 after byte 135 (R28, R29). -/
theorem squeezeByte_sqCursor_le (hc : s.sqCursor.toNat ≤ 135) : s.squeezeByte.sqCursor.toNat ≤ 135 := by
  rw [State.squeezeByte_sqCursor]
  split
  · decide
  · bv_omega

theorem State.Inv.squeezeByte (hs : s.Inv) (hp : s.phase = .squeezing) : s.squeezeByte.Inv where
  bufShort := by simpa using hs.bufShort
  cursorShort := squeezeByte_sqCursor_le hs.cursorShort
  absorbing := by simp [hp]
  squeezing := by simpa using hs.squeezing
  owed := by simp +contextual [hp]
  latch := by simpa using hs.latch
  codeUsed := by simpa using hs.codeUsed

theorem State.Inv.performed (hs : s.Inv) (hp : permitted i s.phase) : (performed i s).Inv := by
  cases i with
  | init => exact hs.newSession
  | absorb d => exact hs.absorbByte hp d
  | finalize => exact hs.finish
  | squeeze => exact hs.squeezeByte hp

/-! ### Commands, words and steps keep the invariants, and complete -/

theorem exec_keeps_inv (hs : s.Inv) (h : exec i s = .next t) : t.Inv := by
  obtain ⟨-, rfl⟩ | ⟨-, -, c, -, rfl⟩ | ⟨-, hp, rfl⟩ := exec_next_cases h
  · exact hs.refuse
  · exact hs.raiseFault c
  · exact hs.performed hp

theorem State.Inv.illegalWord (hs : s.Inv) : (illegalWord s).Inv := by
  unfold Machine.illegalWord
  split
  · exact hs.refuse
  · exact hs.raiseFault _

theorem issue_keeps_inv {w : CmdWord} (hs : s.Inv) (h : issue w s = .next t) : t.Inv := by
  cases hd : decode w with
  | none =>
    rw [issue_of_illegal hd] at h
    obtain rfl : illegalWord s = t := by simpa using h
    exact hs.illegalWord
  | some i =>
    rw [issue_of_decode hd] at h
    exact exec_keeps_inv hs h

theorem step_keeps_inv (hs : s.Inv) (h : step s = .next t) : t.Inv := by
  obtain ⟨rfl, -⟩ | ⟨rfl, -⟩ | ⟨w, -, hw⟩ := step_next_cases h
  · exact inv_hardReset _
  · exact hs.takeInput.silent
  · exact issue_keeps_inv hs.takeInput hw

/-- In a legal state a permitted command is performed. -/
theorem exec_of_permitted_of_inv (hs : s.Inv) (hf : s.fault = false) (hp : permitted i s.phase) :
    exec i s = .next (performed i s) :=
  exec_of_permitted hf hp hs.bufShort hs.cursorShort

/-- In a legal state no command meets the model's own stops. -/
theorem exec_completes (hs : s.Inv) (i : Instr) : ∃ t, exec i s = .next t := by
  cases h : exec i s with
  | next t => exact ⟨t, rfl⟩
  | fault f =>
    have hb := hs.bufShort
    have hc := hs.cursorShort
    have := exec_fault_cases h
    omega
  | refused r => exact absurd h (exec_ne_refused i s r)

theorem issue_completes (hs : s.Inv) (w : CmdWord) : ∃ t, issue w s = .next t := by
  cases hd : decode w with
  | none => exact ⟨_, issue_of_illegal hd s⟩
  | some i => simpa [issue_of_decode hd] using exec_completes hs i

theorem step_completes (hs : s.Inv) : ∃ t, step s = .next t := by
  unfold step
  rcases nextInput s with ⟨_ | _, _ | _, w⟩ | w
  · exact ⟨_, rfl⟩
  · exact issue_completes hs.takeInput w
  · exact ⟨_, rfl⟩
  · exact ⟨_, rfl⟩
  · exact ⟨_, rfl⟩

/-- A property from which every step reaches a state that has it again holds after any number of steps. -/
theorem runSteps_of_step {P : State → Prop} (hstep : ∀ s, P s → ∃ t, step s = .next t ∧ P t) (n : Nat)
    (hs : P s) : ∃ t, runSteps n s = .next t ∧ P t := by
  induction n generalizing s with
  | zero => exact ⟨s, rfl, hs⟩
  | succ n ih =>
    obtain ⟨u, hu, hPu⟩ := hstep s hs
    simpa [runSteps, hu] using ih hPu

theorem runSteps_keeps_inv (n : Nat) (hs : s.Inv) : ∃ t, runSteps n s = .next t ∧ t.Inv :=
  runSteps_of_step (fun _ hu => (step_completes hu).imp fun _ ht => ⟨ht, step_keeps_inv hu ht⟩) n hs

/-! ### The owed permutation (R29) -/

/-- Of all commands only SQUEEZE, with the cursor at 135, sets `need_perm`. -/
theorem squeeze_of_exec_sets_needPerm (h : exec i s = .next t) (hs : s.needPerm = false)
    (ht : t.needPerm = true) : i = .squeeze ∧ s.sqCursor = 135#8 ∧ t = s.squeezeByte := by
  obtain ⟨-, rfl⟩ | ⟨-, -, c, -, rfl⟩ | ⟨-, -, rfl⟩ := exec_next_cases h
  · simp [hs] at ht
  · simp [hs] at ht
  · cases i with
    | init => simp [performed] at ht
    | absorb d => simp [performed, hs] at ht
    | finalize => simp [performed] at ht
    | squeeze => exact ⟨rfl, by simpa [performed] using ht, rfl⟩

end Sys2Proof.Machine

namespace Sys2Proof.Proofs
open Sys2Proof.Machine

/-- Settles O48, from the invariants of each operation a step can run. -/
theorem stepKeepsTheInvariant : Obligations.StepKeepsTheInvariant :=
  fun _ _ hs h => step_keeps_inv hs h

/-- Settles O49, each invariant evaluated on the reset values of R150. -/
theorem resetMeetsTheInvariant : Obligations.ResetMeetsTheInvariant := State.inv_reset

/-- Settles O50, by induction on the number of steps: a step from a legal state completes in a legal state. -/
theorem reachableStatesMeetTheInvariant : Obligations.ReachableStatesMeetTheInvariant :=
  fun inputs n => runSteps_keeps_inv n (State.inv_reset.withInputs inputs)

/-- Settles O35: what a performed command writes to `need_perm`. -/
theorem needPermIsSetAndCleared : Obligations.NeedPermIsSetAndCleared := by
  refine ⟨?_, ?_, ?_, ?_, ?_, fun _ => rfl, rfl⟩
  · intro i s t _ h hs ht
    obtain ⟨hi, hc, rfl⟩ := squeeze_of_exec_sets_needPerm h hs ht
    exact ⟨hi, hc, by simp [hc], by simp [hs]⟩
  · intro s hs hf hp hc
    exact ⟨_, exec_of_permitted_of_inv (i := .squeeze) hs hf hp, by simp [performed, hc]⟩
  · intro s hs hf hn
    obtain ⟨hp, hc⟩ := hs.owed hn
    exact ⟨_, exec_of_permitted_of_inv (i := .squeeze) hs hf hp, by simp [performed, hc], by simp [performed, hn],
      by simp [performed, State.squeezed, hn, hc]⟩
  · intro s hs hf hp
    exact ⟨_, exec_of_permitted_of_inv (i := .finalize) hs hf hp, rfl⟩
  · intro s hf
    exact ⟨s.newSession, by simp [exec, execInit, hf], rfl⟩

/-- Settles O37, by the frame of a command and the three things ABSORB can do. -/
theorem absorbFrame : Obligations.AbsorbFrame := by
  intro d s t h
  obtain ⟨hphase, hcursor, hneed⟩ := exec_absorb_sequencing h
  refine ⟨exec_sameHost h, hphase, hcursor, hneed, exec_emitted_of_ne_squeeze h (by simp),
    fun hp => exec_latch_of_permitted h hp, fun hn => ⟨fun k _ => ?_, fun j hj => ?_⟩⟩
  · rw [exec_lanes_of_permutations_eq_zero h (by simp) hn]
  · exact exec_absorb_keeps_buffered_bytes h hn hj

/-- Settles O39: input enters lanes 0 to 16 alone, and a response is read at a cursor below 136. -/
theorem capacityIsOnlyPermutedOrInitialised : Obligations.CapacityIsOnlyPermutedOrInitialised := by
  refine ⟨fun A blk i hi hi' => xorBlock_capacity_lane A blk hi hi', ?_, ?_,
    fun k _ => div_eight_lt_rateLanes_iff k, rfl⟩
  · intro i s t b h hb
    obtain ⟨rfl, hc, rfl⟩ := squeeze_of_exec_rsp h hb
    exact ⟨hc, by simpa [State.squeezed] using hb.symm⟩
  · intro i s t h hi hn k _ _
    rw [exec_lanes_of_permutations_eq_zero h hi hn]

/-- Settles O40: the checks read no lane, and without an owed permutation the byte presented lies in the rate. -/
theorem capacityStaysHidden : Obligations.CapacityStaysHidden := by
  rintro s _ C hn hC rfl t h
  obtain ⟨hf, rfl⟩ | ⟨hf, hp, c, hc, rfl⟩ | ⟨hf, hp, rfl⟩ := exec_next_cases h
  · exact ⟨_, exec_of_fault .squeeze hf, rfl, rfl, rfl, rfl, rfl⟩
  · obtain ⟨c', hc', hv⟩ := exec_of_violation (s := { s with lanes := C }) hf hp
    obtain rfl : c = c' := Option.some.inj (hc.symm.trans hc')
    exact ⟨_, hv, rfl, rfl, rfl, rfl, rfl⟩
  · obtain ⟨hcursor, -⟩ := (exec_squeeze_eq_next_iff hf hp).mp h
    have hbyte := squeezed_congr_of_rate_lanes hn hcursor hC
    have hv := (exec_squeeze_eq_next_iff (s := { s with lanes := C }) hf hp).mpr ⟨hcursor, rfl⟩
    refine ⟨_, hv, ?_⟩
    simp [performed, hbyte, State.stPhase, State.stFault, State.stErr]

end Sys2Proof.Proofs
end

section
/-! PROOFS. The byte view of the state array (20_memory.md R41 to R44), and steps over a command stream (R52). -/

namespace Sys2Proof.Machine

/-! ### A lane and its bytes (R41) -/

/-- Bit `z` of a lane, read through the byte view. -/
theorem lane_getLsbD_eq_sb (A : Lanes) (i : Nat) {z : Nat} (hz : z < 64) :
    (A.lane i).getLsbD z = (sb A (8 * i + z / 8)).getLsbD (z % 8) := by
  have hlane : (8 * i + z / 8) / 8 = i := by omega
  have hbit : 8 * ((8 * i + z / 8) % 8) + z % 8 = z := by omega
  rw [sb_getLsbD _ _ (Nat.mod_lt z (by decide)), hlane, hbit]

/-- A lane is its eight bytes, the lowest index least significant. -/
theorem lane_eq_laneOfBytes (A : Lanes) (i : Nat) : A.lane i = laneOfBytes (sb A) i :=
  BitVec.eq_of_getLsbD_eq fun z hz => by
    rw [lane_getLsbD_eq_sb A i hz, laneOfBytes_getLsbD _ i hz]

/-- Lanes made of bytes XOR byte by byte. -/
theorem laneOfBytes_xor (f g : Nat → Byte) (i : Nat) :
    laneOfBytes f i ^^^ laneOfBytes g i = laneOfBytes (fun j => f j ^^^ g j) i :=
  BitVec.eq_of_getLsbD_eq fun z hz => by
    simp only [BitVec.getLsbD_xor, laneOfBytes_getLsbD _ i hz]

/-- A lane depends on its own eight bytes alone. -/
theorem laneOfBytes_congr {f g : Nat → Byte} {i : Nat} (h : ∀ j, j / 8 = i → f j = g j) :
    laneOfBytes f i = laneOfBytes g i :=
  BitVec.eq_of_getLsbD_eq fun z hz => by
    rw [laneOfBytes_getLsbD _ i hz, laneOfBytes_getLsbD _ i hz, h _ (by omega)]

/-! ### `SBXOR` (R42) -/

/-- A byte shifted to place `m` of a lane has its bits there and zeros in the other seven places. -/
theorem zext64_shiftLeft_getLsbD (b : Byte) {m n z : Nat} (hn : n < 8) (hz : z < 8) :
    (zext64 b <<< (8 * m)).getLsbD (8 * n + z) = (decide (n = m) && b.getLsbD z) := by
  have hpos : 8 * n + z < 64 := by omega
  rw [BitVec.getLsbD_shiftLeft, zext64, BitVec.getLsbD_setWidth]
  obtain hlt | rfl | hgt := Nat.lt_trichotomy n m
  · have hbelow : 8 * n + z < 8 * m := by omega
    simp [hbelow, hlt.ne]
  · simp [hpos]; omega
  · have habove : b.getLsbD (8 * n + z - 8 * m) = false := b.getLsbD_of_ge _ (by omega)
    simp [habove, hgt.ne']

/-- The shift of R42 loses no bit. -/
theorem shiftRight_shiftLeft_setWidth (b : Byte) {m : Nat} (hm : m < 8) :
    (b.setWidth 64 <<< (8 * m)) >>> (8 * m) = b.setWidth 64 :=
  BitVec.eq_of_getLsbD_eq fun z hz => by
    simp only [BitVec.getLsbD_ushiftRight, BitVec.getLsbD_shiftLeft, BitVec.getLsbD_setWidth]
    by_cases hz8 : z < 8
    · have hpos : 8 * m + z < 64 := by omega
      simp [hz, hpos]
    · simp [b.getLsbD_of_ge z (by omega)]

theorem sbXor_lane (A : Lanes) (b : Byte) {k i : Nat} (hk : k < 200) (hi : i < laneCount) :
    (sbXor A k b).lane i = if i = k / 8 then A.lane i ^^^ (zext64 b <<< (8 * (k % 8))) else A.lane i := by
  have hk' : k / 8 < laneCount := by simp only [laneCount_eq]; omega
  rw [sbXor, Lanes.lane_setLane _ _ hk' hi]
  split
  next h => rw [h]
  next => rfl

/-- `SBXOR` changes one of the 200 bytes. -/
theorem sb_sbXor (A : Lanes) (b : Byte) {k j : Nat} (hk : k < 200) (hj : j < 200) :
    sb (sbXor A k b) j = if j = k then sb A j ^^^ b else sb A j := by
  have hj' : j / 8 < laneCount := by simp only [laneCount_eq]; omega
  apply BitVec.eq_of_getLsbD_eq
  intro z hz
  rw [sb_getLsbD _ _ hz, sbXor_lane A b hk hj']
  by_cases hlane : j / 8 = k / 8
  · have hplace : j % 8 = k % 8 ↔ j = k := by omega
    rw [if_pos hlane, BitVec.getLsbD_xor, zext64_shiftLeft_getLsbD b (Nat.mod_lt j (by decide)) hz,
      ← sb_getLsbD A j hz]
    by_cases h : j = k <;> simp [hplace, h]
  · have hne : j ≠ k := fun h => hlane (by rw [h])
    rw [if_neg hlane, if_neg hne, sb_getLsbD A j hz]

/-! ### `XORBLOCK` (R43) -/

/-- `SBXOR`s at distinct places XOR each of these bytes once, whatever their order. -/
theorem sb_foldl_sbXor (f : Nat → Byte) {order : List Nat} (hnodup : order.Nodup)
    (hrange : ∀ k ∈ order, k < 200) (A : Lanes) {j : Nat} (hj : j < 200) :
    sb (order.foldl (fun B k => sbXor B k (f k)) A) j = if j ∈ order then sb A j ^^^ f j else sb A j := by
  induction order generalizing A with
  | nil => simp
  | cons k rest ih =>
    obtain ⟨hk, hrest⟩ := List.nodup_cons.mp hnodup
    obtain ⟨hk200, hrange'⟩ := List.forall_mem_cons.mp hrange
    rw [List.foldl_cons, ih hrest hrange', sb_sbXor A (f k) hk200 hj]
    by_cases h : j = k
    · subst h; simp [hk]
    · simp [h]

/-- The byte operations of `XORBLOCK` in any order, byte by byte. -/
theorem sb_foldl_sbXor_of_perm (f : Nat → Byte) {order : List Nat} (h : order.Perm (List.range rate))
    (A : Lanes) {j : Nat} (hj : j < 200) :
    sb (order.foldl (fun B k => sbXor B k (f k)) A) j = if j < rate then sb A j ^^^ f j else sb A j := by
  have hmem : ∀ k, k ∈ order ↔ k < rate := fun k => h.mem_iff.trans List.mem_range
  have hrange : ∀ k ∈ order, k < 200 := fun k hk => ((hmem k).mp hk).trans (by decide)
  simp only [sb_foldl_sbXor f (h.nodup_iff.mpr List.nodup_range) hrange A hj, hmem]

theorem sb_xorBlock (A : Lanes) (blk : List Byte) {j : Nat} (hj : j < rate) :
    sb (xorBlock A blk) j = sb A j ^^^ blk.getD j 0#8 := by
  rw [xorBlock, sb_foldl_sbXor_of_perm (fun j => blk.getD j 0#8) (List.Perm.refl _) A (hj.trans (by decide)),
    if_pos hj]

/-- A rate lane is XORed with the lane of its eight block bytes. -/
theorem xorBlock_rate_lane (A : Lanes) (blk : List Byte) {i : Nat} (hi : i < rateLanes) :
    (xorBlock A blk).lane i = A.lane i ^^^ laneOfBytes (fun j => blk.getD j 0#8) i := by
  rw [lane_eq_laneOfBytes A, laneOfBytes_xor, lane_eq_laneOfBytes]
  apply laneOfBytes_congr
  rintro j rfl
  exact sb_xorBlock A blk ((div_eight_lt_rateLanes_iff j).mp hi)

/-- The order of the byte operations does not matter. -/
theorem foldl_sbXor_eq_xorBlock (A : Lanes) (blk : List Byte) {order : List Nat}
    (h : order.Perm (List.range rate)) :
    order.foldl (fun B j => sbXor B j (blk.getD j 0#8)) A = xorBlock A blk :=
  Lanes.ext_sb fun j hj => by
    rw [xorBlock, sb_foldl_sbXor_of_perm (fun j => blk.getD j 0#8) h A hj,
      sb_foldl_sbXor_of_perm (fun j => blk.getD j 0#8) (List.Perm.refl _) A hj]

/-! ### The word a host offers for a command -/

@[simp] theorem opField_cmdWord (op d : Byte) : opField (cmdWord op d) = op :=
  BitVec.extractLsb'_append_eq_left

@[simp] theorem dField_cmdWord (op d : Byte) : dField (cmdWord op d) = d :=
  BitVec.extractLsb'_append_eq_right

/-- The decoder reads back every command's word (R65, R68). -/
theorem decode_encode (i : Instr) : decode (encode i) = some i := by
  cases i <;> simp [decode, encode]

/-! ### A command reads the architectural elements alone -/

variable {i : Instr} {s t u : State}

/-- The bound a command checks last (R25, R28). -/
def fits (i : Instr) (s : State) : Prop :=
  match i with
  | .init => True
  | .absorb _ => s.buf.length < rate
  | .finalize => s.buf.length < rate
  | .squeeze => s.sqCursor.toNat < rate

/-- A permitted command answers a next state exactly when its bound holds, and performs then. -/
theorem exec_eq_next_iff_of_permitted (hf : s.fault = false) (hp : permitted i s.phase) :
    exec i s = .next t ↔ fits i s ∧ performed i s = t := by
  cases i with
  | init => simp [exec, execInit, hf, fits, performed]
  | absorb d =>
    obtain hp : s.phase = .absorbing := hp
    by_cases hb : s.buf.length < 136 <;> simp [exec, execAbsorb, fits, performed, hf, hp, hb]
  | finalize =>
    obtain hp : s.phase = .absorbing := hp
    by_cases hb : s.buf.length < 136 <;> simp [exec, execFinalize, fits, performed, hf, hp, hb]
  | squeeze => exact exec_squeeze_eq_next_iff hf hp

theorem State.SameEngine.fits (he : State.SameEngine s u) (h : fits i s) : fits i u := by
  cases i with
  | init => exact trivial
  | absorb d => simpa [Machine.fits, he.buf] using h
  | finalize => simpa [Machine.fits, he.buf] using h
  | squeeze => simpa [Machine.fits, he.sqCursor] using h

theorem State.SameEngine.trans (h : State.SameEngine s t) (h' : State.SameEngine t u) :
    State.SameEngine s u where
  lanes := h'.lanes.trans h.lanes
  buf := h'.buf.trans h.buf
  phase := h'.phase.trans h.phase
  sqCursor := h'.sqCursor.trans h.sqCursor
  needPerm := h'.needPerm.trans h.needPerm
  fault := h'.fault.trans h.fault
  errCode := h'.errCode.trans h.errCode

theorem sameEngine_takeInput (s : State) : State.SameEngine s (takeInput s) := by
  constructor <;> rfl

theorem sameEngine_withInputs (s : State) (inputs : List HostInput) :
    State.SameEngine s (s.withInputs inputs) := by
  constructor <;> rfl

theorem State.SameEngine.silent (he : State.SameEngine s u) : State.SameEngine s.silent u.silent :=
  ⟨he.lanes, he.buf, he.phase, he.sqCursor, he.needPerm, he.fault, he.errCode⟩

theorem State.SameEngine.raiseFault (he : State.SameEngine s u) (c : Cause) :
    State.SameEngine (s.raiseFault c) (u.raiseFault c) :=
  ⟨he.lanes, he.buf, he.phase, he.sqCursor, he.needPerm, rfl, rfl⟩

theorem State.SameEngine.absorbByte (he : State.SameEngine s u) (d : Byte) :
    State.SameEngine (s.absorbByte d) (u.absorbByte d) := by
  obtain ⟨hlanes, hbuf, hphase, hcursor, hneed, hfault, hcode⟩ := he
  by_cases h : s.buf.length + 1 = rate
  · rw [State.absorbByte_full s d h, State.absorbByte_full u d (hbuf ▸ h)]
    constructor <;> simp [*]
  · rw [State.absorbByte_short s d h, State.absorbByte_short u d (hbuf ▸ h)]
    constructor <;> simp [*]

theorem State.SameEngine.performed (he : State.SameEngine s u) (i : Instr) :
    State.SameEngine (performed i s) (performed i u) := by
  cases i with
  | init => exact ⟨rfl, rfl, rfl, rfl, rfl, he.fault, he.errCode⟩
  | absorb d => exact he.absorbByte d
  | finalize =>
    obtain ⟨hlanes, hbuf, -, -, -, hfault, hcode⟩ := he
    constructor <;> simp [Machine.performed, *]
  | squeeze =>
    obtain ⟨hlanes, hbuf, hphase, hcursor, hneed, hfault, hcode⟩ := he
    constructor <;> simp [Machine.performed, *]

/-- The response of a performed command is a function of the architectural elements. -/
theorem State.SameEngine.performed_rsp (he : State.SameEngine s u) (i : Instr) :
    (Machine.performed i u).rsp = (Machine.performed i s).rsp := by
  by_cases hi : i = .squeeze
  · simp [hi, Machine.performed, State.squeezed, he.lanes, he.needPerm, he.sqCursor]
  · rw [Machine.performed_rsp hi, Machine.performed_rsp hi]

/-- R111: from states that agree in the architectural elements a command leads to states that do, with one
response. -/
theorem exec_of_sameEngine (he : State.SameEngine s u) (h : exec i s = .next t) :
    ∃ v, exec i u = .next v ∧ State.SameEngine t v ∧ v.rsp = t.rsp := by
  obtain ⟨hf, rfl⟩ | ⟨hf, hp, c, hc, rfl⟩ | ⟨hf, hp, rfl⟩ := exec_next_cases h
  · exact ⟨_, exec_of_fault i (he.fault.trans hf), he.silent, rfl⟩
  · obtain ⟨c', hc', hv⟩ := exec_of_violation (he.fault.trans hf) (he.phase ▸ hp)
    obtain rfl : c = c' := Option.some.inj (hc.symm.trans hc')
    exact ⟨_, hv, he.raiseFault c, rfl⟩
  · obtain ⟨hfit, -⟩ := (exec_eq_next_iff_of_permitted hf hp).mp h
    have hv := (exec_eq_next_iff_of_permitted (he.fault.trans hf) (he.phase ▸ hp)).mpr ⟨he.fits hfit, rfl⟩
    exact ⟨_, hv, he.performed i, he.performed_rsp i⟩

/-- A command puts the byte it presents on the output stream, and nothing else (R63). -/
theorem exec_emitted (h : exec i s = .next t) : t.emitted = s.emitted ++ t.rsp.toList := by
  obtain ⟨-, rfl⟩ | ⟨-, -, c, -, rfl⟩ | ⟨-, -, rfl⟩ := exec_next_cases h
  · simp
  · simp
  · by_cases hi : i = .squeeze
    · simp [hi, performed]
    · simp [performed_emitted hi, performed_rsp hi]

/-! ### Steps over a command stream (R52) -/

theorem execAll_cons_eq_next {rest : List Instr} (h : execAll (i :: rest) s = .next t) :
    ∃ m, exec i s = .next m ∧ execAll rest m = .next t := by
  cases he : exec i s with
  | next m => exact ⟨m, rfl, by rwa [execAll_cons he] at h⟩
  | fault f => simp [execAll, he] at h
  | refused r => simp [execAll, he] at h

/-- A step whose next input is a command's word runs that command. -/
theorem step_of_offered_command {rest : List HostInput} (h : s.pending = offer i :: rest) :
    step s = exec i (takeInput s) := by
  have hnext : nextInput s = offerWord (encode i) := by simp [nextInput, h, offer]
  rw [step_of_offer hnext, issue_of_decode (decode_encode i)]

/-- Steps over offered commands, from any state that agrees with `s` but for the host's fields. -/
theorem runSteps_offered {program : List Instr} (he : State.SameEngine s u) (hemitted : u.emitted = s.emitted)
    (hrsp : u.rsp = s.rsp) (hpending : u.pending = program.map offer) (h : execAll program s = .next t) :
    ∃ v, runSteps program.length u = .next v ∧ State.SameEngine t v ∧ v.emitted = t.emitted ∧
      v.rsp = t.rsp ∧ v.pending = [] := by
  induction program generalizing s u with
  | nil =>
    obtain rfl : s = t := by simpa [execAll] using h
    exact ⟨u, rfl, he, hemitted, hrsp, hpending⟩
  | cons i rest ih =>
    obtain ⟨m, hm, hrest⟩ := execAll_cons_eq_next h
    obtain ⟨w, hw, hmw, hwrsp⟩ := exec_of_sameEngine (he.trans (sameEngine_takeInput u)) hm
    have hstep : step u = .next w := (step_of_offered_command hpending).trans hw
    have hwemitted : w.emitted = m.emitted := by
      rw [exec_emitted hw, exec_emitted hm, hwrsp, takeInput_emitted, hemitted]
    have hwpending : w.pending = rest.map offer := by
      rw [(exec_sameHost hw).pending, takeInput_pending, hpending, List.map_cons, List.tail_cons]
    simpa [runSteps, hstep] using ih hmw hwemitted hwrsp hwpending hrest

end Sys2Proof.Machine

namespace Sys2Proof.Proofs
open Sys2Proof.Machine

/-- Settles O11, by induction on the program: each step runs one command, which does not read the host's fields. -/
theorem stepsRunTheCommandStreamInOrder : Obligations.StepsRunTheCommandStreamInOrder :=
  fun _ _ _ h => runSteps_offered (sameEngine_withInputs _ _) rfl rfl rfl h

/-- Settles O16, bit by bit; the named bytes and the example are the formula at fixed places. -/
theorem stateBytesAreLittleEndian : Obligations.StateBytesAreLittleEndian := by
  refine fun A => ⟨fun k _ z hz => sb_getLsbD A k hz, fun i _ => lane_eq_laneOfBytes A i, rfl, rfl, rfl, rfl, ?_⟩
  intro h
  simp [sb, h]

/-- Settles O17, from the lane a byte write changes and the place of the byte in it. -/
theorem sbxorChangesOneByte : Obligations.SbxorChangesOneByte := by
  refine fun A k b hk => ⟨fun j hj => ?_, fun i hi => sbXor_lane A b hk hi,
    shiftRight_shiftLeft_setWidth b (Nat.mod_lt k (by decide)),
    sbXor_lane A 0x1F#8 (by decide) (by decide), sbXor_lane A 0x80#8 (by decide) (by decide)⟩
  rw [sb_sbXor A b hk hj]
  split
  next h => rw [h]
  next => rfl

/-- Settles O18: the byte operations act at distinct places, each once. -/
theorem xorblockIsLanewise : Obligations.XorblockIsLanewise :=
  fun A blk _ => ⟨fun _ hj => sb_xorBlock A blk hj, fun _ hi => xorBlock_rate_lane A blk hi,
    fun _ hi hi' => xorBlock_capacity_lane A blk hi hi', fun _ h => foldl_sbXor_eq_xorBlock A blk h⟩

/-- Settles O19: the position `64 i + z` names byte `8 i + z div 8` and its bit `z mod 8`. -/
theorem bitsAreLeastSignificantFirst : Obligations.BitsAreLeastSignificantFirst := by
  refine ⟨fun A i z _ hz => ?_, by decide, by decide, by decide⟩
  have hbyte : (64 * i + z) / 8 = 8 * i + z / 8 := by omega
  have hbit : (64 * i + z) % 8 = z % 8 := by omega
  rw [lane_getLsbD_eq_sb A i hz, hbyte, hbit]

end Sys2Proof.Proofs
end

section
/-! PROOFS. Command words (30_encoding.md R62 to R68), the assembler (R71), and what the port does with an offered
word, an idle cycle and a response (R61, R63). -/

namespace Sys2Proof

open Machine

variable {w : CmdWord} {i j : Instr}

/-! ### A word and its two fields (R62) -/

@[simp] theorem cmdWord_opField_dField (w : CmdWord) : cmdWord (opField w) (dField w) = w :=
  (BitVec.extractLsb'_append_extractLsb'_eq_extractLsb' rfl).trans BitVec.extractLsb'_eq_self

/-- Two words are equal when their fields are. -/
theorem eq_of_fields {v w : CmdWord} (hop : opField v = opField w) (hd : dField v = dField w) : v = w := by
  rw [← cmdWord_opField_dField v, hop, hd, cmdWord_opField_dField]

theorem opField_toNat (w : CmdWord) : (opField w).toNat = w.toNat / 256 := by
  have hw := w.isLt
  simp only [opField, BitVec.extractLsb'_toNat, Nat.shiftRight_eq_div_pow]
  omega

theorem dField_toNat (w : CmdWord) : (dField w).toNat = w.toNat % 256 := by
  simp [dField, BitVec.extractLsb'_toNat]

/-! ### Decoding and encoding are inverse (R65, R66, R68) -/

/-- The decoder answers `i` only for the word of `i`. -/
theorem encode_of_decode (h : decode w = some i) : encode i = w := by
  unfold decode at h
  split_ifs at h with habsorb hd hinit hfinalize hsqueeze <;> obtain rfl := Option.some.inj h
  · exact eq_of_fields (by simp [encode, habsorb]) (by simp [encode])
  · exact eq_of_fields (by simp [encode, hinit]) (by simp [encode, hd])
  · exact eq_of_fields (by simp [encode, hfinalize]) (by simp [encode, hd])
  · exact eq_of_fields (by simp [encode, hsqueeze]) (by simp [encode, hd])

theorem decode_eq_some_iff : decode w = some i ↔ encode i = w :=
  ⟨encode_of_decode, fun h => h ▸ decode_encode i⟩

theorem encode_injective : Function.Injective encode := fun i _ h =>
  Option.some.inj ((decode_encode i).symm.trans (decode_eq_some_iff.mpr h.symm))

/-- The host's number of a word stands for that word. -/
theorem decodeTableWord_toNat (w : CmdWord) : decodeTableWord 16 w.toNat = decode w := by
  have hmod : w.toNat % 2 ^ 16 = w.toNat := Nat.mod_eq_of_lt w.isLt
  rw [decodeTableWord, hmod, if_pos w.isLt, BitVec.ofNat_toNat, BitVec.setWidth_eq]

/-! ### The four rows of the opcode map (R65) -/

/-- Commands of one opcode are the commands of one row. -/
theorem sameOpcode_iff_rowMatch_eq : sameOpcode i j ↔ rowMatch i = rowMatch j := by
  cases i <;> cases j <;> simp [sameOpcode, rowMatch]

theorem rowMask_eq_of_sameOpcode (h : sameOpcode i j) : rowMask i = rowMask j := by
  cases i <;> cases j <;> simp_all [sameOpcode, rowMask]

theorem encode_and_rowMask (i : Instr) : encode i &&& rowMask i = rowMatch i := by
  cases i with
  | init => exact Laws.TableRow.init
  | absorb d => exact Laws.TableRow.absorb d
  | finalize => exact Laws.TableRow.finalize
  | squeeze => exact Laws.TableRow.squeeze

/-- The mask of a command without an operand tests every bit. -/
theorem and_fullMask (w : CmdWord) : w &&& 0xFFFF#16 = w := BitVec.and_allOnes

/-- The mask of ABSORB keeps the opcode field. -/
theorem opField_and_opcodeMask (w : CmdWord) : opField (w &&& 0xFF00#16) = opField w :=
  BitVec.extractLsb'_and.trans BitVec.and_allOnes

theorem opField_of_and_opcodeMask (h : w &&& 0xFF00#16 = 0x0200#16) : opField w = 0x02#8 :=
  (opField_and_opcodeMask w).symm.trans (congrArg opField h)

/-- A word meets a row's mask and match exactly when it is the word of a command of that row's opcode. -/
theorem and_rowMask_eq_rowMatch_iff :
    w &&& rowMask i = rowMatch i ↔ ∃ j, sameOpcode i j ∧ encode j = w := by
  constructor
  · intro h
    cases i with
    | init => exact ⟨.init, trivial, h.symm.trans (and_fullMask w)⟩
    | absorb d =>
      exact ⟨.absorb (dField w), trivial,
        eq_of_fields (by simp [encode, opField_of_and_opcodeMask h]) (by simp [encode])⟩
    | finalize => exact ⟨.finalize, trivial, h.symm.trans (and_fullMask w)⟩
    | squeeze => exact ⟨.squeeze, trivial, h.symm.trans (and_fullMask w)⟩
  · rintro ⟨j, hj, rfl⟩
    rw [rowMask_eq_of_sameOpcode hj, sameOpcode_iff_rowMatch_eq.mp hj, encode_and_rowMask]

/-- The four patterns are disjoint: a word that meets two rows is the word of one command, of both opcodes. -/
theorem sameOpcode_of_common_word (hi : w &&& rowMask i = rowMatch i) (hj : w &&& rowMask j = rowMatch j) :
    sameOpcode i j := by
  obtain ⟨k, hik, rfl⟩ := and_rowMask_eq_rowMatch_iff.mp hi
  obtain ⟨l, hjl, hlk⟩ := and_rowMask_eq_rowMatch_iff.mp hj
  obtain rfl := encode_injective hlk
  exact sameOpcode_iff_rowMatch_eq.mpr
    ((sameOpcode_iff_rowMatch_eq.mp hik).trans (sameOpcode_iff_rowMatch_eq.mp hjl).symm)

/-- A word that meets no row is illegal. -/
theorem decode_eq_none_of_no_row (h : ∀ i, w &&& rowMask i ≠ rowMatch i) : decode w = none :=
  Option.eq_none_iff_forall_ne_some.mpr fun i hi => h i (encode_of_decode hi ▸ encode_and_rowMask i)

/-! ### The illegal words (R67) -/

theorem decode_eq_none_iff : decode w = none ↔
    (opField w = 0x00#8 ∨ 0x05 ≤ (opField w).toNat) ∨
      ((opField w = 0x01#8 ∨ opField w = 0x03#8 ∨ opField w = 0x04#8) ∧ dField w ≠ 0x00#8) := by
  simp only [decode, ne_eq, ← BitVec.toNat_inj, BitVec.toNat_ofNat]
  split_ifs <;> simp <;> omega

/-- The 259 legal words as numbers: those of INIT, FINALIZE and SQUEEZE, and the 256 of ABSORB. -/
def legalWordNumbers : Finset ℕ := {0x0100, 0x0300, 0x0400} ∪ Finset.Ico 0x0200 0x0300

theorem card_legalWordNumbers : legalWordNumbers.card = 259 := by
  have hdisjoint : Disjoint ({0x0100, 0x0300, 0x0400} : Finset ℕ) (Finset.Ico 0x0200 0x0300) := by
    simp [Finset.disjoint_left]
  rw [legalWordNumbers, Finset.card_union_of_disjoint hdisjoint, Nat.card_Ico]
  rfl

theorem legalWordNumbers_subset : legalWordNumbers ⊆ Finset.range 65536 := by
  intro n hn
  simp only [legalWordNumbers, Finset.mem_union, Finset.mem_insert, Finset.mem_singleton, Finset.mem_Ico] at hn
  rw [Finset.mem_range]
  omega

theorem decode_ofNat_eq_none_iff {n : ℕ} (hn : n < 65536) :
    decode (BitVec.ofNat 16 n) = none ↔ n ∉ legalWordNumbers := by
  have hmod : n % 2 ^ 16 = n := Nat.mod_eq_of_lt hn
  simp only [decode_eq_none_iff, legalWordNumbers, ne_eq, ← BitVec.toNat_inj, opField_toNat, dField_toNat,
    BitVec.toNat_ofNat, hmod, Finset.mem_union, Finset.mem_insert, Finset.mem_singleton, Finset.mem_Ico]
  omega

/-- R67: 65536 - 259 words are illegal. -/
theorem countP_illegal_words :
    ((List.range 65536).countP fun n => decode (BitVec.ofNat 16 n) = none) = 65277 := by
  have hillegal : {n ∈ Finset.range 65536 | decode (BitVec.ofNat 16 n) = none} =
      Finset.range 65536 \ legalWordNumbers := by
    ext n
    simp +contextual [decode_ofNat_eq_none_iff]
  calc ((List.range 65536).countP fun n => decode (BitVec.ofNat 16 n) = none)
      = {n ∈ Finset.range 65536 | decode (BitVec.ofNat 16 n) = none}.card :=
        Nat.count_eq_card_filter_range _ _
    _ = 65536 - 259 := by
        rw [hillegal, Finset.card_sdiff_of_subset legalWordNumbers_subset, Finset.card_range,
          card_legalWordNumbers]

end Sys2Proof

namespace Sys2Proof.Machine

/-! ### The assembler's text (R71) -/

/-- What stands before a comment is read as if the comment were not there. -/
theorem stripComment_append_comment (line comment : List Char) :
    stripComment (line ++ ';' :: comment) = stripComment line := by
  induction line with
  | nil => simp [stripComment]
  | cons c rest ih =>
    by_cases hc : c = ';'
    · simp [stripComment, hc]
    · simpa [stripComment, hc] using ih

theorem stripComment_of_no_comment {line : List Char} (h : ∀ c ∈ line, c ≠ ';') : stripComment line = line := by
  simpa [stripComment, List.takeWhile_eq_self_iff] using h

@[simp] theorem tokens_blank (rest : List Char) : tokens (' ' :: rest) = tokens rest := by
  simp [tokens]

theorem tokens_of_blanks {line : List Char} (h : ∀ c ∈ line, c = ' ') : tokens line = [] := by
  obtain ⟨n, rfl⟩ : ∃ n, line = List.replicate n ' ' := ⟨_, List.eq_replicate_of_mem h⟩
  induction n with
  | zero => rfl
  | succ n ih => simpa [List.replicate_succ] using ih (by simp)

/-- A word of the text ends at a blank or at the end of the line. -/
theorem tokens_word {word rest : List Char} (hne : word ≠ []) (hword : ∀ c ∈ word, c ≠ ' ')
    (hrest : ∀ c ∈ rest.head?, c = ' ') : tokens (word ++ rest) = word :: tokens rest := by
  induction word with
  | nil => exact absurd rfl hne
  | cons c word ih =>
    obtain ⟨hc, hword'⟩ := List.forall_mem_cons.mp hword
    cases word with
    | nil =>
      cases rest with
      | nil => simp [tokens, hc]
      | cons b rest =>
        obtain rfl : b = ' ' := hrest b rfl
        simp [tokens, hc]
    | cons d word =>
      have hd : d ≠ ' ' := hword' d List.mem_cons_self
      have ih' : tokens (d :: (word ++ rest)) = (d :: word) :: tokens rest := ih (by simp) hword'
      rw [List.cons_append, List.cons_append, tokens, if_neg hc]
      simp only [if_neg hd, ih']

theorem hexDigit_is_no_mark : ∀ n < 16, hexDigit n ≠ ' ' ∧ hexDigit n ≠ ';' := by decide

theorem hexValue_hexDigit : ∀ n < 16, hexValue (hexDigit n) = some n := by decide

/-- The operand of ABSORB as `renderLine` prints it. -/
def renderByte (d : Byte) : List Char := ['0', 'x', hexDigit (d.toNat / 16), hexDigit (d.toNat % 16)]

theorem renderLine_absorb (d : Byte) :
    renderLine (.absorb d) = ['A', 'B', 'S', 'O', 'R', 'B'] ++ ' ' :: renderByte d := rfl

theorem renderByte_is_no_mark (d : Byte) : ∀ c ∈ renderByte d, c ≠ ' ' ∧ c ≠ ';' := by
  have hd := d.isLt
  have hhigh := hexDigit_is_no_mark (d.toNat / 16) (by omega)
  have hlow := hexDigit_is_no_mark (d.toNat % 16) (by omega)
  simpa [renderByte] using ⟨hhigh, hlow⟩

/-- The two digits of a byte are read back. -/
theorem parseByte_renderByte (d : Byte) : parseByte (renderByte d) = some d := by
  have hd := d.isLt
  have hhigh := hexValue_hexDigit (d.toNat / 16) (by omega)
  have hlow := hexValue_hexDigit (d.toNat % 16) (by omega)
  simp [parseByte, renderByte, hhigh, hlow, Nat.div_add_mod]

theorem tokens_renderLine_absorb (d : Byte) :
    tokens (stripComment (renderLine (.absorb d))) = [['A', 'B', 'S', 'O', 'R', 'B'], renderByte d] := by
  have hblank : ∀ c ∈ renderByte d, c ≠ ' ' := fun c hc => (renderByte_is_no_mark d c hc).1
  have hcomment : ∀ c ∈ renderByte d, c ≠ ';' := fun c hc => (renderByte_is_no_mark d c hc).2
  have hoperand : tokens (renderByte d) = [renderByte d] := by
    simpa [tokens] using tokens_word (rest := []) (by simp [renderByte]) hblank (by simp)
  rw [renderLine_absorb, stripComment_of_no_comment (by simpa using hcomment),
    tokens_word (by simp) (by simp) (by simp), tokens_blank, hoperand]

/-- A printed line is read as its command. -/
theorem parseLine_renderLine (i : Instr) : parseLine (renderLine i) = some [i] := by
  cases i with
  | init => decide
  | absorb d => simp [parseLine, tokens_renderLine_absorb, parseByte_renderByte]
  | finalize => decide
  | squeeze => decide

theorem parseProgram_map_renderLine (program : List Instr) :
    parseProgram (program.map renderLine) = some program := by
  induction program with
  | nil => rfl
  | cons i rest ih => simp [parseProgram, parseLine_renderLine, ih]

theorem parseLine_append_comment (line comment : List Char) :
    parseLine (line ++ ';' :: comment) = parseLine line := by
  rw [parseLine, stripComment_append_comment, parseLine]

theorem parseLine_of_blanks {line : List Char} (h : ∀ c ∈ line, c = ' ') : parseLine line = some [] := by
  have hstrip : stripComment line = line :=
    stripComment_of_no_comment fun c hc hmark => absurd ((h c hc).symm.trans hmark) (by decide)
  rw [parseLine, hstrip, tokens_of_blanks h]

/-! ### The port: idle cycles, reset cycles, responses (R61, R63) -/

variable {i : Instr} {s t : State}

/-- A performed command presents a response exactly when it is SQUEEZE. -/
theorem performed_rspValid : (performed i s).rspValid = true ↔ i = .squeeze := by
  by_cases hi : i = .squeeze
  · simp [hi, State.rspValid, performed]
  · simp [hi, State.rspValid, performed_rsp hi]

theorem exec_rspValid_iff (h : exec i s = .next t) :
    t.rspValid = true ↔ i = .squeeze ∧ s.fault = false ∧ s.phase = .squeezing := by
  obtain ⟨hf, rfl⟩ | ⟨hf, hp, c, -, rfl⟩ | ⟨hf, hp, rfl⟩ := exec_next_cases h
  · simp [State.rspValid, hf]
  · have hno : ¬(i = .squeeze ∧ s.phase = .squeezing) := by
      rintro ⟨rfl, hphase⟩
      exact hp hphase
    simpa [State.rspValid, hf] using hno
  · rw [performed_rspValid]
    refine ⟨?_, fun ⟨hi, _⟩ => hi⟩
    rintro rfl
    exact ⟨rfl, hf, hp⟩

theorem step_of_pending_word {w : CmdWord} {rest : List HostInput} (h : s.pending = .cycle false true w :: rest) :
    step s = issue w { s with pending := rest, tick := s.tick + 1 } := by
  have hnext : nextInput s = offerWord w := by simp [nextInput, h, offerWord]
  simp [step_of_offer hnext, takeInput, h]

theorem step_of_idle_cycle {w : CmdWord} (h : nextInput s = .cycle false false w) :
    step s = .next (takeInput s).silent := by
  simp [step, transact, h]

theorem HostInput.noReset_of_isIdle {h : HostInput} (hidle : h.isIdle = true) : h.noReset = true := by
  rcases h with ⟨_ | _, _ | _, w⟩ | w <;> simp_all [HostInput.isIdle, HostInput.noReset]

/-- A reset cycle and an abandoned command leave the reset values. -/
theorem eq_hardReset_of_step (h : step s = .next t) (hreset : (nextInput s).noReset = false) :
    t = hardReset (takeInput s) := by
  obtain ⟨ht, -⟩ | ⟨-, hidle⟩ | ⟨w, hw, -⟩ := step_next_cases h
  · exact ht
  · simp [HostInput.noReset_of_isIdle hidle] at hreset
  · simp [hw, offerWord, HostInput.noReset] at hreset

end Sys2Proof.Machine

namespace Sys2Proof.Proofs
open Sys2Proof.Machine

/-- Settles O3: the decoder answers a command exactly for that command's word. -/
theorem decodeAndEncodeAreInverse : Obligations.DecodeAndEncodeAreInverse :=
  ⟨decode_encode, fun _ _ => encode_of_decode,
    fun i => (decodeTableWord_toNat (encode i)).trans (decode_encode i)⟩

/-- Settles O2: the words that meet a row are the words of the commands of its opcode. -/
theorem opcodePatternsAreDisjoint : Obligations.OpcodePatternsAreDisjoint := by
  refine ⟨fun _ => ⟨rfl, rfl, rfl, rfl, rfl, rfl, rfl, rfl⟩, fun w i => ?_,
    fun _ _ _ => sameOpcode_of_common_word⟩
  simp only [decode_eq_some_iff, and_rowMask_eq_rowMatch_iff]

/-- Settles O4: the illegal words from the decoder's tests, and their number from the 259 legal ones. -/
theorem illegalWordsFault : Obligations.IllegalWordsFault := by
  refine ⟨fun _ => decode_eq_none_iff, countP_illegal_words, by decide, fun w s hw hf => ?_⟩
  rw [issue_of_illegal hw, illegalWord, if_neg (by simp [hf])]
  rfl

/-- Settles O6, by induction on the program: each printed line is read as its command. -/
theorem assemblerRoundTrip : Obligations.AssemblerRoundTrip := by
  refine ⟨fun program => ?_, parseLine_append_comment, fun line comment h => ?_⟩
  · rw [assemble, parseProgram_map_renderLine, Option.map_some]
  · rw [parseLine_append_comment, parseLine_of_blanks h]

/-- Settles O14, from the three things a command can do and the byte it adds to the stream. -/
theorem onlyCompletedSqueezeResponds : Obligations.OnlyCompletedSqueezeResponds := by
  refine ⟨fun i s t h => ⟨exec_rspValid_iff h, fun b hb => ?_, fun hb => ?_⟩, fun s t h hreset => ?_⟩
  · exact ⟨by simp [State.rspData, hb], by simp [exec_emitted h, hb]⟩
  · simp [exec_emitted h, hb]
  · rw [eq_hardReset_of_step h hreset]
    exact ⟨rfl, rfl⟩

/-- Settles O1: a word that meets one of the four tests is that command's word, and one that meets none is illegal. -/
theorem decodeTestsTheMaskedPatterns : Obligations.DecodeTestsTheMaskedPatterns := by
  intro w
  split_ifs with hinit habsorb hfinalize hsqueeze
  · exact decode_eq_some_iff.mpr (hinit.symm.trans (and_fullMask w))
  · exact if_pos (opField_of_and_opcodeMask habsorb)
  · exact decode_eq_some_iff.mpr (hfinalize.symm.trans (and_fullMask w))
  · exact decode_eq_some_iff.mpr (hsqueeze.symm.trans (and_fullMask w))
  · refine decode_eq_none_of_no_row fun i => ?_
    cases i with
    | init => exact hinit
    | absorb d => exact habsorb
    | finalize => exact hfinalize
    | squeeze => exact hsqueeze

/-- Settles O5, each word evaluated. -/
theorem sampleWordsDecode : Obligations.SampleWordsDecode := by
  unfold Obligations.SampleWordsDecode
  decide

/-- Settles O7: the offered word is issued, and issuing a legal word runs its command. -/
theorem stepRunsTheIssuedCommand : Obligations.StepRunsTheIssuedCommand :=
  fun _ _ _ _ hpending hw => (step_of_pending_word hpending).trans (issue_of_decode hw _)

/-- Settles O9: with nothing offered, or nothing left to offer, the next input is an idle cycle. -/
theorem idleCycleChangesNothing : Obligations.IdleCycleChangesNothing := by
  refine ⟨fun s w rest h => ?_, fun s h => ?_⟩
  · have hidle : nextInput s = .cycle false false w := by simp [nextInput, h]
    simp [step_of_idle_cycle hidle, State.silent, takeInput, h]
  · have hidle : nextInput s = .cycle false false 0x0000#16 := by simp [nextInput, h, idleInput]
    simp [step_of_idle_cycle hidle, State.silent, takeInput, h]

end Sys2Proof.Proofs
end

section
/-! PROOFS. The Permutation Core (40_permutation.md): the rotation bit by bit (R80), pi (R86, R89), which bits each
step mapping reads (R97), the tables (R96), the rounds (R92), and that KeccakF is a permutation (R93). -/

namespace Sys2Proof.Machine

/-! ### `ROTL64` bit by bit (R80) -/

/-- Bit `z` of a rotation is the bit `n` places below, cyclically. The offset 64, which R80 leaves out, is
included: rotations add up to it. -/
theorem rotl64_getLsbD (v : Lane) {n z : Nat} (hn : n ≤ 64) (hz : z < 64) :
    (rotl64 v n).getLsbD z = v.getLsbD ((z + (64 - n)) % 64) := by
  by_cases h0 : n = 0
  · have hbit : (z + (64 - 0)) % 64 = z := by omega
    simp [rotl64, h0, hbit]
  · have hor : rotl64 v n = (v <<< n) ||| (v >>> (64 - n)) := if_neg h0
    rw [hor, BitVec.getLsbD_or, BitVec.getLsbD_shiftLeft, BitVec.getLsbD_ushiftRight]
    by_cases hlow : z < n
    · have hbit : (z + (64 - n)) % 64 = 64 - n + z := by omega
      simp [hlow, hbit]
    · have hbit : (z + (64 - n)) % 64 = z - n := by omega
      have hout : v.getLsbD (64 - n + z) = false := BitVec.getLsbD_of_ge v _ (by omega)
      simp [hlow, hz, hbit, hout]

theorem rotl64_xor (u v : Lane) {n : Nat} (hn : n ≤ 64) : rotl64 (u ^^^ v) n = rotl64 u n ^^^ rotl64 v n :=
  BitVec.eq_of_getLsbD_eq fun z hz => by
    simp only [BitVec.getLsbD_xor, rotl64_getLsbD _ hn hz]

theorem rotl64_rotl64 (v : Lane) {m n : Nat} (h : m + n ≤ 64) : rotl64 (rotl64 v m) n = rotl64 v (m + n) :=
  BitVec.eq_of_getLsbD_eq fun z hz => by
    have hbit : ((z + (64 - n)) % 64 + (64 - m)) % 64 = (z + (64 - (m + n))) % 64 := by omega
    rw [rotl64_getLsbD _ (by omega) hz, rotl64_getLsbD _ (by omega) (Nat.mod_lt _ (by decide)),
      rotl64_getLsbD _ h hz, hbit]

@[simp] theorem rotl64_full (v : Lane) : rotl64 v 64 = v :=
  BitVec.eq_of_getLsbD_eq fun z hz => by
    rw [rotl64_getLsbD v le_rfl hz, Nat.sub_self, Nat.add_zero, Nat.mod_eq_of_lt hz]

@[simp] theorem rotl64_of_zero (n : Nat) : rotl64 0#64 n = 0#64 := by
  simp [rotl64]

/-- A rotation loses nothing: rotating on to 64 places gives the lane back. -/
theorem rotl64_injective {n : Nat} (hn : n ≤ 64) : Function.Injective fun v => rotl64 v n := by
  refine Function.LeftInverse.injective (g := fun v => rotl64 v (64 - n)) fun v => ?_
  simp only [rotl64_rotl64 v (show n + (64 - n) ≤ 64 by omega), Nat.add_sub_cancel' hn, rotl64_full]

/-- The largest offset of the table (R84). -/
theorem rot_le_62 : ∀ x y, rot x y ≤ 62 := by decide

/-! ### pi and its inverse relabelling (R86) -/

/-- What a lane's new place reads is that lane. -/
theorem pi_source_of_dest : ∀ x y : Fin 5, y + 3 * (2 * x + 3 * y) = x := by decide

/-- What a place reads goes to that place. -/
theorem pi_dest_of_source : ∀ x y : Fin 5, 2 * (x + 3 * y) + 3 * x = y := by decide

theorem pi_at_dest (A : Lanes) (x y : Fin 5) : (pi A).at y (2 * x + 3 * y) = A.at x y := by
  rw [pi_at, pi_source_of_dest]

/-- The table `PI` names, for each index, the lane that pi reads. -/
theorem piTable_coordinates : ∀ i < laneCount,
    laneX (piTable.getD i 0) = laneX i + 3 * laneY i ∧ laneY (piTable.getD i 0) = laneX i := by decide

theorem pi_lane (A : Lanes) {i : Nat} (hi : i < laneCount) : (pi A).lane i = A.lane (piTable.getD i 0) := by
  obtain ⟨hx, hy⟩ := piTable_coordinates i hi
  simp only [Lanes.lane, pi_at, hx, hy]

/-- An array is determined by its lanes at the places pi moves lanes to. -/
theorem Lanes.ext_pi_dest {A B : Lanes} (h : ∀ x y : Fin 5, A.at y (2 * x + 3 * y) = B.at y (2 * x + 3 * y)) :
    A = B :=
  Lanes.ext_at fun x y => by simpa only [pi_dest_of_source] using h (x + 3 * y) x

/-! ### Which bits a step mapping reads (R97) -/

variable {A B : Lanes}

theorem columnParity_getLsbD_congr {z : Nat} (h : ∀ x y, (A.at x y).getLsbD z = (B.at x y).getLsbD z)
    (x : Fin 5) : (columnParity A x).getLsbD z = (columnParity B x).getLsbD z := by
  simp only [columnParity, BitVec.getLsbD_xor, h]

/-- The mask of theta reads bit `z` of one column and, by its rotation, the bit below of another. -/
theorem thetaMask_getLsbD (A : Lanes) (x : Fin 5) {z : Nat} (hz : z < 64) :
    (thetaMask A x).getLsbD z =
      ((columnParity A (x + 4)).getLsbD z ^^ (columnParity A (x + 1)).getLsbD ((z + 63) % 64)) := by
  rw [thetaMask, BitVec.getLsbD_xor, rotl64_getLsbD _ (by decide) hz]

/-! ### The step mappings on uniform arrays -/

theorem thetaMask_eq_zero (h : ∀ x, columnParity A x = 0#64) (x : Fin 5) : thetaMask A x = 0#64 := by
  simp [thetaMask, h]

theorem theta_of_even_columns (h : ∀ x, columnParity A x = 0#64) : theta A = A :=
  Lanes.ext_at fun x y => by rw [theta_at, thetaMask_eq_zero h, BitVec.xor_zero]

theorem theta_zero : theta Lanes.zero = Lanes.zero :=
  theta_of_even_columns fun x => by simp [columnParity]

theorem rho_zero : rho Lanes.zero = Lanes.zero := Lanes.ext_at fun x y => by simp

theorem pi_zero : pi Lanes.zero = Lanes.zero := Lanes.ext_at fun x y => by simp

theorem chi_zero : chi Lanes.zero = Lanes.zero := Lanes.ext_at fun x y => by simp

theorem chi_allOnes :
    chi (Lanes.build fun _ _ => BitVec.allOnes 64) = Lanes.build fun _ _ => BitVec.allOnes 64 :=
  Lanes.ext_at fun x y => by simp

/-! ### The rounds in order (R92) -/

/-- The array after the first `n` rounds. -/
def afterRounds (A : Lanes) (n : Nat) : Lanes := (List.range n).foldl rnd A

theorem afterRounds_zero (A : Lanes) : afterRounds A 0 = A := rfl

theorem afterRounds_succ (A : Lanes) (n : Nat) : afterRounds A (n + 1) = rnd (afterRounds A n) n := by
  rw [afterRounds, List.range_succ, List.foldl_append, List.foldl_cons, List.foldl_nil, afterRounds]

theorem keccakF_eq_afterRounds (A : Lanes) : keccakF A = afterRounds A 24 := rfl

/-! ### Each step mapping is injective (R93) -/

/-- There are finitely many arrays, so an injective map of them is a bijection. -/
theorem finite_lanes : Finite Lanes :=
  Finite.of_injective Lanes.at fun _ _ h => Lanes.ext_at fun x y => congrFun (congrFun h x) y

theorem bijective_of_injective {f : Lanes → Lanes} (hf : Function.Injective f) : Function.Bijective f :=
  have := finite_lanes
  hf.bijective_of_finite

/-! #### theta -/

/-- With associativity and commutativity this brings equal lanes of an XOR together, for `xor_cancel_left`. -/
theorem xor_left_comm (u v w : Lane) : u ^^^ (v ^^^ w) = v ^^^ (u ^^^ w) := by
  rw [← BitVec.xor_assoc, BitVec.xor_comm u v, BitVec.xor_assoc]

theorem xor_cancel_left (u v : Lane) : u ^^^ (u ^^^ v) = v := by
  rw [← BitVec.xor_assoc, BitVec.xor_self, BitVec.zero_xor]

/-- What theta does to the five column parities, at `a` = 4, `b` = 1, `n` = 1. -/
def parityMap (a b : Fin 5) (n : Nat) (C : Fin 5 → Lane) : Fin 5 → Lane :=
  fun x => C x ^^^ C (x + a) ^^^ rotl64 (C (x + b)) n

/-- Each of the five lanes of a column is XORed with the same mask, and five is odd. -/
theorem columnParity_theta_apply (A : Lanes) (x : Fin 5) :
    columnParity (theta A) x = columnParity A x ^^^ thetaMask A x := by
  simp only [columnParity, theta_at]
  simp only [BitVec.xor_assoc, xor_left_comm, BitVec.xor_comm, xor_cancel_left]

theorem columnParity_theta (A : Lanes) : columnParity (theta A) = parityMap 4 1 1 (columnParity A) := by
  funext x
  rw [columnParity_theta_apply, thetaMask, parityMap, BitVec.xor_assoc]

/-- Squaring the map doubles its three parameters: the cross terms cancel. -/
theorem parityMap_twice (a b : Fin 5) {n : Nat} (hn : n + n ≤ 64) (C : Fin 5 → Lane) :
    parityMap a b n (parityMap a b n C) = parityMap (a + a) (b + b) (n + n) C := by
  funext x
  have hn' : n ≤ 64 := by omega
  simp only [parityMap, rotl64_xor _ _ hn', rotl64_rotl64 _ hn, add_assoc, add_comm b a]
  simp only [BitVec.xor_assoc, xor_left_comm, xor_cancel_left]

theorem parityMap_injective_of_double (a b : Fin 5) {n : Nat} (hn : n + n ≤ 64)
    (h : Function.Injective (parityMap (a + a) (b + b) (n + n))) : Function.Injective (parityMap a b n) := by
  refine Function.Injective.of_comp (f := parityMap a b n) ?_
  rwa [show parityMap a b n ∘ parityMap a b n = _ from funext (parityMap_twice a b hn)]

/-- At 64 places the rotation is gone, and the map's third iterate is the identity. -/
theorem parityMap_full_thrice (C : Fin 5 → Lane) :
    parityMap 1 4 64 (parityMap 1 4 64 (parityMap 1 4 64 C)) = C := by
  funext x
  simp only [parityMap, rotl64_full, add_assoc, Fin.reduceAdd, add_zero]
  simp only [BitVec.xor_assoc, xor_left_comm, BitVec.xor_comm, xor_cancel_left, BitVec.xor_self,
    BitVec.xor_zero]

theorem parityMap_full_injective : Function.Injective (parityMap 1 4 64) :=
  Function.LeftInverse.injective (g := parityMap 1 4 64 ∘ parityMap 1 4 64) parityMap_full_thrice

/-- Six squarings take the map of theta to offset 64. -/
theorem parityMap_theta_injective : Function.Injective (parityMap 4 1 1) :=
  parityMap_injective_of_double 4 1 (by decide) <|
  parityMap_injective_of_double 3 2 (by decide) <|
  parityMap_injective_of_double 1 4 (by decide) <|
  parityMap_injective_of_double 2 3 (by decide) <|
  parityMap_injective_of_double 4 1 (by decide) <|
  parityMap_injective_of_double 3 2 (by decide) parityMap_full_injective

/-- Arrays with the same image have the same column parities, so the same mask. -/
theorem theta_injective : Function.Injective theta := by
  intro A B h
  have hparity : columnParity A = columnParity B := parityMap_theta_injective <| by
    rw [← columnParity_theta, ← columnParity_theta, h]
  refine Lanes.ext_at fun x y => ?_
  have hlane := congrArg (fun S => Lanes.at S x y) h
  simpa only [theta_at, thetaMask, hparity, BitVec.xor_left_inj] using hlane

/-! #### rho and pi -/

theorem rho_injective : Function.Injective rho := by
  intro A B h
  refine Lanes.ext_at fun x y => ?_
  have hlane := congrArg (fun S => Lanes.at S x y) h
  have hoffset : rot x y ≤ 64 := (rot_le_62 x y).trans (by decide)
  exact rotl64_injective hoffset (by simpa only [rho_at] using hlane)

theorem pi_injective : Function.Injective pi := by
  intro A B h
  refine Lanes.ext_at fun x y => ?_
  rw [← pi_at_dest A, ← pi_at_dest B, h]

/-! #### chi -/

/-- What chi does to one bit, from the two bits at its right. -/
def chiBit (a b c : Bool) : Bool := a ^^ (!b && c)

theorem chi_getLsbD (A : Lanes) (x y : Fin 5) {z : Nat} (hz : z < 64) :
    ((chi A).at x y).getLsbD z =
      chiBit ((A.at x y).getLsbD z) ((A.at (x + 1) y).getLsbD z) ((A.at (x + 2) y).getLsbD z) := by
  simp [chiBit, hz]

/-- A bit of a row of five is recovered from the five bits chi makes of the row. -/
theorem chiBit_recover : ∀ a b c d e : Bool,
    chiBit (chiBit a b c) (chiBit b c d) (chiBit (chiBit c d e) (chiBit d e a) (chiBit e a b)) = a := by
  decide

/-- The array whose image under chi is the given one. -/
def chiInverse (A : Lanes) : Lanes :=
  Lanes.build fun x y => A.at x y ^^^
    (~~~(A.at (x + 1) y) &&& (A.at (x + 2) y ^^^ (~~~(A.at (x + 3) y) &&& A.at (x + 4) y)))

theorem chiInverse_getLsbD (A : Lanes) (x y : Fin 5) {z : Nat} (hz : z < 64) :
    ((chiInverse A).at x y).getLsbD z =
      chiBit ((A.at x y).getLsbD z) ((A.at (x + 1) y).getLsbD z)
        (chiBit ((A.at (x + 2) y).getLsbD z) ((A.at (x + 3) y).getLsbD z) ((A.at (x + 4) y).getLsbD z)) := by
  simp [chiInverse, chiBit, hz]

theorem chiInverse_chi (A : Lanes) : chiInverse (chi A) = A := by
  refine Lanes.ext_at fun x y => BitVec.eq_of_getLsbD_eq fun z hz => ?_
  simp only [chiInverse_getLsbD _ x y hz, chi_getLsbD A _ y hz, add_assoc, Fin.reduceAdd, add_zero,
    chiBit_recover]

theorem chi_injective : Function.Injective chi := Function.LeftInverse.injective chiInverse_chi

/-! #### iota, and the rounds -/

theorem iota_iota (A : Lanes) (i : Nat) : iota (iota A i) i = A :=
  Lanes.ext_at fun x y => by
    by_cases h : x = 0 ∧ y = 0
    · obtain ⟨rfl, rfl⟩ := h
      simp
    · simp [h]

theorem iota_injective (i : Nat) : Function.Injective fun A => iota A i :=
  Function.LeftInverse.injective (g := fun A => iota A i) fun A => iota_iota A i

/-- A round is the composition of its five step mappings (R91). -/
theorem rnd_injective (i : Nat) : Function.Injective fun A => rnd A i :=
  (iota_injective i).comp <| chi_injective.comp <| pi_injective.comp <| rho_injective.comp theta_injective

theorem afterRounds_injective (n : Nat) : Function.Injective fun A => afterRounds A n := by
  induction n with
  | zero => exact Function.injective_id
  | succ n ih => simpa only [afterRounds_succ, Function.comp_def] using (rnd_injective n).comp ih

end Sys2Proof.Machine

namespace Sys2Proof.Proofs
open Sys2Proof.Machine

/-- Settles O28: rounds are injective, so 24 of them are, and there are finitely many arrays. -/
theorem keccakfIsAPermutation : Obligations.KeccakfIsAPermutation :=
  bijective_of_injective (afterRounds_injective 24)

/-- Settles O26: theta is injective on the column parities, and there are finitely many arrays. -/
theorem thetaIsInvertible : Obligations.ThetaIsInvertible := bijective_of_injective theta_injective

/-- Settles O27: chi has a left inverse, and there are finitely many arrays. -/
theorem chiIsInvertible : Obligations.ChiIsInvertible := bijective_of_injective chi_injective

/-- Settles O20: bit `z` of the rotation is the bit `n` places below; the example is evaluated. -/
theorem rotationMovesBitsUp : Obligations.RotationMovesBitsUp := by
  refine ⟨fun v n z hn hz => ?_, fun v => if_pos rfl, fun v n hn _ => if_neg (by omega), rot_le_62, by decide⟩
  have hbit : ((z + n) % 64 + (64 - n)) % 64 = z := by omega
  rw [rotl64_getLsbD v (by omega) (Nat.mod_lt _ (by decide)), hbit]

/-- Settles O22: the two coordinate forms are inverse relabellings, and the table is the second by index. -/
theorem piRelabelsTheLanes : Obligations.PiRelabelsTheLanes :=
  ⟨pi_at_dest, pi_at, fun A _ hi => pi_lane A hi, by decide,
    fun A => ⟨pi_at A 0 0, pi_at A 1 0, pi_at A 0 1⟩⟩

/-- Settles O23: the two arrays agree at the places pi moves lanes to, and those are all places. -/
theorem rhoThenPiInOneStep : Obligations.RhoThenPiInOneStep := by
  intro A B h
  have hB : pi (rho A) = B := Lanes.ext_pi_dest fun x y => by rw [pi_at_dest, rho_at, h]
  exact ⟨hB, congrArg chi hB⟩

/-- Settles O24, from the bits each lane of a step mapping's result reads. -/
theorem slicesAreIndependent : Obligations.SlicesAreIndependent := by
  intro A B z hz h
  refine ⟨fun x y => ?_, fun x y => ?_, fun i x y => ?_, fun hbelow x y => ?_⟩
  · simp only [chi_at, BitVec.getLsbD_xor, BitVec.getLsbD_and, BitVec.getLsbD_not, h]
  · rw [pi_at, pi_at, h]
  · rw [iota_at, iota_at]
    split
    · rw [BitVec.getLsbD_xor, BitVec.getLsbD_xor, h]
    · exact h x y
  · rw [theta_at, theta_at, BitVec.getLsbD_xor, BitVec.getLsbD_xor, h, thetaMask_getLsbD A x hz,
      thetaMask_getLsbD B x hz, columnParity_getLsbD_congr h, columnParity_getLsbD_congr hbelow]

/-- Settles O21: the walk, the register and the tables are closed, and each check is evaluated. -/
theorem tablesAreRegenerated : Obligations.TablesAreRegenerated := by
  unfold Obligations.TablesAreRegenerated
  refine ⟨by decide, by decide, by decide, by decide, by decide⟩

/-- Settles O25: no column parity, no mask; and from the zero array only the round constant is left. -/
theorem stepMappingCornerCases : Obligations.StepMappingCornerCases := by
  refine ⟨fun _ => theta_of_even_columns, theta_zero, rho_zero, pi_zero, chi_zero, chi_allOnes, ?_⟩
  rw [rnd, theta_zero, rho_zero, pi_zero, chi_zero]
  decide

/-- Settles O29: the chain is the array after each number of rounds; the lane from the zero array is evaluated. -/
theorem permuteRunsTwentyFourRounds : Obligations.PermuteRunsTwentyFourRounds :=
  ⟨fun A => ⟨afterRounds A, afterRounds_zero A, rfl, fun i _ => afterRounds_succ A i⟩,
    fun _ => ⟨rfl, rfl, rfl, rfl, rfl, rfl, rfl⟩, by decide⟩

end Sys2Proof.Proofs
end

section
/-! PROOFS. The commands one at a time (41_sponge_commands.md R100 to R105, R108): the checks in their order, what
each command writes and leaves, and the padding block. -/

namespace Sys2Proof.Machine

variable {i : Instr} {s t : State}

/-! ### The outcome of each command by its checks (R101) -/

theorem exec_of_violation_eq {c : Cause} (hf : s.fault = false) (hp : ¬permitted i s.phase)
    (hc : violation i = some c) : exec i s = .next (s.raiseFault c) := by
  obtain ⟨c', hc', he⟩ := exec_of_violation hf hp
  obtain rfl : c = c' := Option.some.inj (hc.symm.trans hc')
  exact he

theorem exec_of_fits (hf : s.fault = false) (hp : permitted i s.phase) (h : fits i s) :
    exec i s = .next (performed i s) :=
  (exec_eq_next_iff_of_permitted hf hp).mpr ⟨h, rfl⟩

theorem exec_init (hf : s.fault = false) : exec .init s = .next s.newSession :=
  exec_of_fits (i := .init) hf trivial trivial

theorem exec_absorb (d : Byte) (hf : s.fault = false) (hp : s.phase = .absorbing) (hb : s.buf.length ≤ 135) :
    exec (.absorb d) s = .next (s.absorbByte d) :=
  exec_of_fits (i := .absorb d) hf hp (Nat.lt_succ_of_le hb)

theorem exec_finalize (hf : s.fault = false) (hp : s.phase = .absorbing) (hb : s.buf.length ≤ 135) :
    exec .finalize s = .next s.finish :=
  exec_of_fits (i := .finalize) hf hp (Nat.lt_succ_of_le hb)

theorem exec_squeeze (hf : s.fault = false) (hp : s.phase = .squeezing) (hc : s.sqCursor.toNat ≤ 135) :
    exec .squeeze s = .next s.squeezeByte :=
  exec_of_fits (i := .squeeze) hf hp (Nat.lt_succ_of_le hc)

theorem not_permitted_absorb_of_squeezing (d : Byte) (hp : s.phase = .squeezing) :
    ¬permitted (.absorb d) s.phase := by
  simp [permitted, hp]

theorem not_permitted_finalize_of_squeezing (hp : s.phase = .squeezing) : ¬permitted .finalize s.phase := by
  simp [permitted, hp]

theorem not_permitted_squeeze_of_absorbing (hp : s.phase = .absorbing) : ¬permitted .squeeze s.phase := by
  simp [permitted, hp]

theorem issue_of_fault (w : CmdWord) (hf : s.fault = true) : issue w s = .next s.refuse := by
  cases hd : decode w with
  | none => rw [issue_of_illegal hd, illegalWord, if_pos hf]
  | some i => rw [issue_of_decode hd, exec_of_fault i hf]

theorem issue_of_illegal_eq {w : CmdWord} (hd : decode w = none) (hf : s.fault = false) :
    issue w s = .next (s.raiseFault .illegalCommand) := by
  rw [issue_of_illegal hd, illegalWord, if_neg (by simp [hf])]

/-- R108: INIT alone leads from Squeezing to Absorbing. -/
theorem eq_init_of_exec_leaves_squeezing (h : exec i s = .next t) (hs : s.phase = .squeezing)
    (ht : t.phase = .absorbing) : i = .init := by
  obtain ⟨-, rfl⟩ | ⟨-, -, c, -, rfl⟩ | ⟨-, -, rfl⟩ := exec_next_cases h
  · simp [hs] at ht
  · simp [hs] at ht
  · cases i with
    | init => rfl
    | absorb d => simp [performed, hs] at ht
    | finalize => simp [performed] at ht
    | squeeze => simp [performed, hs] at ht

/-- A refused or faulting command leaves every element but the latch (R134, R136). -/
theorem exec_frame_of_not_performed (h : exec i s = .next t) (hn : s.fault = true ∨ ¬permitted i s.phase) :
    t.lanes = s.lanes ∧ t.buf = s.buf ∧ t.phase = s.phase ∧ t.sqCursor = s.sqCursor ∧
      t.needPerm = s.needPerm := by
  obtain ⟨-, rfl⟩ | ⟨-, -, c, -, rfl⟩ | ⟨hf, hp, -⟩ := exec_next_cases h
  · exact ⟨rfl, rfl, rfl, rfl, rfl⟩
  · exact ⟨rfl, rfl, rfl, rfl, rfl⟩
  · simp [hf, hp] at hn

/-- SQUEEZE, performed or not, leaves the buffer and the phase (R104). -/
theorem exec_squeeze_buf_phase (h : exec .squeeze s = .next t) : t.buf = s.buf ∧ t.phase = s.phase := by
  obtain ⟨-, rfl⟩ | ⟨-, -, c, -, rfl⟩ | ⟨-, -, rfl⟩ := exec_next_cases h
  · exact ⟨rfl, rfl⟩
  · exact ⟨rfl, rfl⟩
  · exact ⟨s.squeezeByte_buf, s.squeezeByte_phase⟩

/-- SQUEEZE writes the state array only by the owed permutation (R104). -/
theorem exec_squeeze_lanes (h : exec .squeeze s = .next t) (hn : s.needPerm = false) : t.lanes = s.lanes :=
  exec_lanes_of_permutations_eq_zero h (by simp) (by simp [permutations, hn])

/-! ### The window SQUEEZE reads (R104) -/

/-- The array SQUEEZE reads its byte from: permuted first when a permutation is owed. -/
def State.window (s : State) : Lanes := if s.needPerm then keccakF s.lanes else s.lanes

theorem State.squeezed_eq (s : State) : s.squeezed = sb s.window s.sqCursor.toNat := rfl

theorem State.squeezeByte_eq (s : State) :
    s.squeezeByte = { s with
      lanes := s.window
      sqCursor := if s.sqCursor = 135#8 then 0#8 else s.sqCursor + 1#8
      needPerm := decide (s.sqCursor = 135#8)
      rsp := some (sb s.window s.sqCursor.toNat)
      emitted := s.emitted ++ [sb s.window s.sqCursor.toNat] } :=
  State.ext (by simp [State.window]) (by simp) (by simp) (by simp) (by simp) (by simp) (by simp)
    (by simp [State.squeezed_eq]) (by simp [State.squeezed_eq]) (by simp) (by simp)

theorem State.finish_eq (s : State) :
    s.finish = { s with
      lanes := keccakF (xorBlock s.lanes (padBlock s.buf)), buf := [], phase := .squeezing, sqCursor := 0#8,
      needPerm := false, rsp := none } :=
  State.ext (by simp) rfl rfl rfl rfl rfl rfl rfl rfl rfl rfl

/-! ### The padding block (R105) -/

section PaddingBlock

variable {buf : List Byte}

theorem padBlock_length (h : buf.length ≤ 135) : (padBlock buf).length = rate := by
  simp only [padBlock, orByte, List.length_set, List.length_append, List.length_replicate, rate_eq]
  omega

theorem padBlock_getD_of_lt (h : buf.length ≤ 135) {j : Nat} (hj : j < buf.length) :
    (padBlock buf).getD j 0#8 = buf.getD j 0#8 := by
  have hne : j ≠ 135 := by omega
  rw [padBlock_getD h (by omega), if_pos hj, if_neg hne, BitVec.or_zero]

/-- Byte `j` from the end of the buffer on: the domain byte at its place, the end bit in byte 135. -/
theorem padBlock_getD_of_ge (h : buf.length ≤ 135) {j : Nat} (hj : buf.length ≤ j) (hj' : j < 136) :
    (padBlock buf).getD j 0#8 =
      (if j = buf.length then ds else 0#8) ||| (if j = 135 then padEnd else 0#8) := by
  rw [padBlock_getD h hj', if_neg (by omega)]
  rfl

theorem ds_getLsbD : ∀ z < 8, ds.getLsbD z = decide (z < 5) := by decide

theorem padEnd_getLsbD : ∀ z < 8, padEnd.getLsbD z = decide (z = 7) := by decide

/-- The padding as bits: five ones from the end of the buffer on, and a last one at bit 1087. -/
theorem padBlock_bit (h : buf.length ≤ 135) {m : Nat} (hm : m < 1088) :
    ((padBlock buf).getD (m / 8) 0#8).getLsbD (m % 8) =
      if m < 8 * buf.length then (buf.getD (m / 8) 0#8).getLsbD (m % 8)
      else decide (m < 8 * buf.length + 5 ∨ m = 1087) := by
  have hz : m % 8 < 8 := Nat.mod_lt m (by decide)
  split
  next hlt => rw [padBlock_getD_of_lt h (by omega)]
  next hge =>
    rw [padBlock_getD_of_ge h (by omega) (by omega), BitVec.getLsbD_or]
    rw [Bool.eq_iff_iff]
    split <;> split <;> simp [ds_getLsbD _ hz, padEnd_getLsbD _ hz] <;> omega

/-- The padded block starts with the buffered bytes. -/
theorem padBlock_take (h : buf.length ≤ 135) : (padBlock buf).take buf.length = buf := by
  have hlen : (padBlock buf).length = 136 := padBlock_length h
  refine List.ext_getElem (by simp; omega) fun j hj hj' => ?_
  have hbyte := padBlock_getD_of_lt h hj'
  rw [List.getD_eq_getElem _ _ (by omega), List.getD_eq_getElem _ _ hj'] at hbyte
  rw [List.getElem_take, hbyte]

/-- With one byte left both marks fall in it. -/
theorem padBlock_of_length_135 (h : buf.length = 135) : padBlock buf = buf ++ [0x9F#8] := by
  have hlen : (padBlock buf).length = 136 := padBlock_length h.le
  refine List.ext_getElem (by simp [hlen, h]) fun j hj _ => ?_
  rw [← List.getD_eq_getElem _ 0#8 hj]
  by_cases hlt : j < buf.length
  · rw [padBlock_getD_of_lt h.le hlt, List.getElem_append_left hlt, List.getD_eq_getElem _ _ hlt]
  · obtain rfl : j = 135 := by omega
    rw [padBlock_getD_of_ge h.le h.le (by decide)]
    simp [h, ds, padEnd]

/-- The block of an empty buffer (R103). -/
theorem padBlock_nil : padBlock [] = 0x1F#8 :: (List.replicate 134 0x00#8 ++ [0x80#8]) := by
  have hshort : ([] : List Byte).length ≤ 135 := by decide
  have hlen : (padBlock []).length = 136 := padBlock_length hshort
  refine List.ext_getElem (by simp [hlen]) fun j hj hj' => ?_
  rw [← List.getD_eq_getElem _ 0#8 hj, padBlock_getD_of_ge hshort (Nat.zero_le j) (by omega)]
  cases j with
  | zero => rfl
  | succ j =>
    by_cases hlast : j = 134
    · subst hlast; simp [padEnd]
    · have hzero : j < (List.replicate 134 0x00#8).length := by rw [List.length_replicate]; omega
      rw [List.getElem_cons_succ, List.getElem_append_left hzero, List.getElem_replicate, if_neg (by simp),
        if_neg (by omega), BitVec.or_zero]

end PaddingBlock

/-! ### The array after FINALIZE of the empty message (R103) -/

/-- Byte `j` of the block of an empty buffer. -/
def emptyPadByte (j : Nat) : Byte := (if j = 0 then ds else 0#8) ||| (if j = 135 then padEnd else 0#8)

theorem laneOfBytes_emptyPadByte : ∀ i < rateLanes, laneOfBytes emptyPadByte i =
    if i = 0 then 0x000000000000001F#64 else if i = 16 then 0x8000000000000000#64 else 0#64 := by
  decide

/-- The padding block of the empty message has two bytes that are not 0, in lanes 0 and 16. -/
theorem xorBlock_zero_padBlock_nil_lane (i : Nat) (hi : i < laneCount) :
    (xorBlock Lanes.zero (padBlock [])).lane i =
      if i = 0 then 0x000000000000001F#64 else if i = 16 then 0x8000000000000000#64 else 0#64 := by
  by_cases hrate : i < 17
  · have hbytes : laneOfBytes (fun j => (padBlock []).getD j 0#8) i = laneOfBytes emptyPadByte i :=
      laneOfBytes_congr fun j hj => padBlock_getD_of_ge (by decide) (Nat.zero_le j) (by omega)
    rw [xorBlock_rate_lane _ _ hrate, Lanes.lane_zero, BitVec.zero_xor, hbytes, laneOfBytes_emptyPadByte i hrate]
  · rw [xorBlock_capacity_lane _ _ (Nat.le_of_not_lt hrate) hi, Lanes.lane_zero, if_neg (by omega), if_neg (by omega)]

theorem xorBlock_zero_padBlock_nil : xorBlock Lanes.zero (padBlock []) =
    (Lanes.zero.setLane 0 0x000000000000001F#64).setLane 16 0x8000000000000000#64 :=
  Lanes.ext_lane fun i hi => by
    rw [xorBlock_zero_padBlock_nil_lane i hi, Lanes.lane_setLane _ _ (by decide) hi,
      Lanes.lane_setLane _ _ (by decide) hi, Lanes.lane_zero]
    by_cases h : i = 0
    · simp [h]
    · simp [h]

theorem keccakF_padBlock_nil_lane :
    (keccakF (xorBlock Lanes.zero (padBlock []))).lane 0 = 0x138DA80B2BDDB946#64 := by
  rw [xorBlock_zero_padBlock_nil]
  decide

end Sys2Proof.Machine

namespace Sys2Proof.Proofs
open Sys2Proof.Machine

/-- Settles O8: the outcome of an issued word by the first check that applies. -/
theorem checksAreMadeInOrder : Obligations.ChecksAreMadeInOrder := by
  refine fun w s => ⟨fun hf => issue_of_fault w hf, fun hf hd => issue_of_illegal_eq hd hf,
    fun i hf hd hp => ?_, fun i hf hd hp hs => ?_, fun d => by simp [permitted]⟩
  · obtain ⟨c, hc, he⟩ := exec_of_violation hf hp
    exact ⟨c, hc, (issue_of_decode hd s).trans he⟩
  · exact ⟨(issue_of_decode hd s).trans (exec_of_permitted_of_inv hs hf hp),
      (performed_fault i s).trans hf⟩

/-- Settles O31, by the length of the buffer against 135. -/
theorem absorbBuffersOrAbsorbsTheBlock : Obligations.AbsorbBuffersOrAbsorbsTheBlock := by
  refine ⟨fun d => decode_encode (.absorb d), fun d s hf hp hb => ?_, fun d s hf hp hb => ?_,
    fun d s hf hp => exec_of_violation_eq hf (not_permitted_absorb_of_squeezing d hp) rfl,
    fun d s hf => exec_of_fault (.absorb d) hf, rfl⟩
  · rw [exec_absorb d hf hp (by omega), State.absorbByte_short s d (by simp; omega)]
    rfl
  · rw [exec_absorb d hf hp (by omega), State.absorbByte_full s d (by simp [hb])]
    rfl

/-- Settles O32, from the byte at each position of the padded block. -/
theorem padblockBytes : Obligations.PadblockBytes := by
  refine fun buf h => ⟨padBlock_length h, fun j hj => padBlock_getD_of_lt h hj,
    fun hb => ⟨?_, fun j hj hj' => ?_, ?_⟩, fun hb => ?_, fun m hm => padBlock_bit h hm⟩
  · have hne : buf.length ≠ 135 := by omega
    rw [padBlock_getD_of_ge h le_rfl (by omega), if_pos rfl, if_neg hne, BitVec.or_zero, ds]
  · rw [padBlock_getD_of_ge h hj.le (by omega), if_neg hj.ne', if_neg hj'.ne, BitVec.or_zero]
  · have hne : 135 ≠ buf.length := by omega
    rw [padBlock_getD_of_ge h h (by decide), if_neg hne, if_pos rfl, BitVec.zero_or, padEnd]
  · rw [padBlock_getD_of_ge h h (by decide), if_pos hb.symm, if_pos rfl]
    rfl

/-- Settles O33: the padded block enters with one permutation; the two printed blocks and the array of the empty
message follow from the block's bytes. -/
theorem finalizePadsAndPermutesOnce : Obligations.FinalizePadsAndPermutesOnce := by
  refine ⟨decode_encode .finalize, fun s hf hp hb => ⟨permutations_finalize_eq_one hf hp, ?_⟩,
    fun s hf hp => exec_of_violation_eq hf (not_permitted_finalize_of_squeezing hp) rfl, padBlock_nil,
    fun _ => padBlock_of_length_135, fun s hf => exec_of_fault .finalize hf,
    xorBlock_zero_padBlock_nil_lane, ?_⟩
  · rw [exec_finalize hf hp hb, State.finish_eq]
  · refine ⟨State.reset.finish, exec_finalize rfl rfl (by decide), ?_⟩
    rw [State.finish_lanes]
    exact keccakF_padBlock_nil_lane

/-- Settles O34: the byte is read from the window at the cursor; the example reads byte 0 of the array of the empty
message. -/
theorem squeezeDeliversTheNextByte : Obligations.SqueezeDeliversTheNextByte := by
  refine ⟨decode_encode .squeeze, ?_,
    fun s hf hp => exec_of_violation_eq hf (not_permitted_squeeze_of_absorbing hp) rfl,
    fun s hf => exec_of_fault .squeeze hf, fun s hf => ?_⟩
  · rintro s _ hf hp hc rfl
    rw [exec_squeeze hf hp hc, State.squeezeByte_eq]
    rfl
  · have hbyte : s.newSession.finish.squeezed = 0x46#8 := by
      simp [State.squeezed, sb, keccakF_padBlock_nil_lane]
    refine ⟨s.newSession.finish.squeezeByte, ?_, by simp [hbyte], by simp [hbyte], by simp, by simp⟩
    have hfinalize : exec .finalize s.newSession = .next s.newSession.finish := exec_finalize hf rfl (by simp)
    have hsqueeze : exec .squeeze s.newSession.finish = .next s.newSession.finish.squeezeByte :=
      exec_squeeze hf rfl (by simp)
    rw [execAll_cons (exec_init hf), execAll_cons hfinalize, execAll_cons hsqueeze, execAll]

/-- Settles O36, from the frames of every command and what a refused or faulting one leaves. -/
theorem initAndFinalizeFrame : Obligations.InitAndFinalizeFrame := by
  intro i s t hi h
  have hne : i ≠ .squeeze := by rintro rfl; simp at hi
  refine ⟨exec_sameHost h, exec_emitted_of_ne_squeeze h hne, exec_latch_of_permitted h, fun hn => ?_⟩
  obtain ⟨hlanes, hrest⟩ := exec_frame_of_not_performed h hn
  exact ⟨fun k _ => by rw [hlanes], hrest⟩

/-- Settles O38, from what SQUEEZE writes: the cursor, the owed permutation, and the array when it is run. -/
theorem squeezeFrame : Obligations.SqueezeFrame := by
  intro s t h
  obtain ⟨hbuf, hphase⟩ := exec_squeeze_buf_phase h
  exact ⟨exec_sameHost h, hbuf, hphase, fun hp => exec_latch_of_permitted h hp,
    fun hn k _ => by rw [exec_squeeze_lanes h hn]⟩

/-- Settles O46: a performed command writes its own phase, and a refused or faulting word leaves the phase. -/
theorem phaseTransitions : Obligations.PhaseTransitions := by
  refine ⟨fun s hs hf hp => ⟨fun d => ?_, ?_, ?_, ?_⟩, fun s hs hf hp => ⟨?_, fun d => ?_, ?_, ?_⟩, ?_, ?_⟩
  · exact ⟨_, exec_absorb d hf hp hs.bufShort, by simp [hp], by simp [hf]⟩
  · exact ⟨_, exec_finalize hf hp hs.bufShort, rfl, hf⟩
  · exact ⟨_, exec_of_violation_eq hf (not_permitted_squeeze_of_absorbing hp) rfl, hp, rfl⟩
  · exact ⟨_, exec_init hf, rfl, hf⟩
  · exact ⟨_, exec_squeeze hf hp hs.cursorShort, by simp [hp], by simp [hf]⟩
  · exact ⟨_, exec_of_violation_eq hf (not_permitted_absorb_of_squeezing d hp) rfl, hp, rfl⟩
  · exact ⟨_, exec_of_violation_eq hf (not_permitted_finalize_of_squeezing hp) rfl, hp, rfl⟩
  · exact ⟨_, exec_init hf, rfl, hf⟩
  · exact fun w s hf hd => ⟨_, issue_of_illegal_eq hd hf, rfl, rfl⟩
  · exact fun w s hf => ⟨_, issue_of_fault w hf, rfl, hf⟩

end Sys2Proof.Proofs
end

section
/-! PROOFS. Runs of commands: idle cycles between them (R112), the source's `update` of a slice (R106), reading the
output stream (R107), and whole sessions (41_sponge_commands.md section 8). -/

namespace Sys2Proof.Machine

variable {i : Instr} {s t u : State}

/-! ### A word on states that agree in the architectural elements (R111) -/

theorem State.SameEngine.symm (h : State.SameEngine s t) : State.SameEngine t s :=
  ⟨h.lanes.symm, h.buf.symm, h.phase.symm, h.sqCursor.symm, h.needPerm.symm, h.fault.symm, h.errCode.symm⟩

theorem State.SameEngine.takeInput (he : State.SameEngine s u) : State.SameEngine (takeInput s) (takeInput u) :=
  ⟨he.lanes, he.buf, he.phase, he.sqCursor, he.needPerm, he.fault, he.errCode⟩

theorem State.SameEngine.illegalWord (he : State.SameEngine s u) :
    State.SameEngine (illegalWord s) (illegalWord u) := by
  unfold Machine.illegalWord
  rw [he.fault]
  split
  · exact he.silent
  · exact he.raiseFault _

@[simp] theorem illegalWord_rsp (s : State) : (illegalWord s).rsp = none := by
  unfold illegalWord; split <;> rfl
@[simp] theorem illegalWord_emitted (s : State) : (illegalWord s).emitted = s.emitted := by
  unfold illegalWord; split <;> rfl
@[simp] theorem illegalWord_pending (s : State) : (illegalWord s).pending = s.pending := by
  unfold illegalWord; split <;> rfl

/-- Everything an issued word can do when it answers a next state. -/
theorem issue_next_cases {w : CmdWord} (h : issue w s = .next t) :
    (decode w = none ∧ t = illegalWord s) ∨ ∃ i, decode w = some i ∧ exec i s = .next t := by
  cases hd : decode w with
  | none => exact .inl ⟨rfl, by simpa [issue_of_illegal hd] using h.symm⟩
  | some i => exact .inr ⟨i, rfl, by rwa [issue_of_decode hd] at h⟩

theorem issue_of_sameEngine {w : CmdWord} (he : State.SameEngine s u) (h : issue w s = .next t) :
    ∃ v, issue w u = .next v ∧ State.SameEngine t v ∧ v.rsp = t.rsp := by
  obtain ⟨hd, rfl⟩ | ⟨i, hd, hi⟩ := issue_next_cases h
  · exact ⟨_, issue_of_illegal hd u, he.illegalWord, by simp⟩
  · rw [issue_of_decode hd]
    exact exec_of_sameEngine he hi

theorem issue_emitted {w : CmdWord} (h : issue w s = .next t) : t.emitted = s.emitted ++ t.rsp.toList := by
  obtain ⟨-, rfl⟩ | ⟨i, -, hi⟩ := issue_next_cases h
  · simp
  · exact exec_emitted hi

theorem issue_pending {w : CmdWord} (h : issue w s = .next t) : t.pending = s.pending := by
  obtain ⟨-, rfl⟩ | ⟨i, -, hi⟩ := issue_next_cases h
  · simp
  · exact (exec_sameHost hi).pending

/-! ### Idle cycles between commands (R112) -/

theorem transact_of_sameEngine {h : HostInput} (he : State.SameEngine s u) (hemitted : u.emitted = s.emitted)
    (ht : transact h s = .next t) :
    ∃ v, transact h u = .next v ∧ State.SameEngine t v ∧ v.emitted = t.emitted := by
  rcases h with ⟨_ | _, _ | _, w⟩ | w
  case cycle.false.false =>
    obtain rfl : s.silent = t := by simpa [transact] using ht
    exact ⟨u.silent, rfl, he.silent, hemitted⟩
  case cycle.false.true =>
    obtain ⟨v, hv, htv, hrsp⟩ := issue_of_sameEngine he ht
    exact ⟨v, hv, htv, by rw [issue_emitted hv, issue_emitted ht, hrsp, hemitted]⟩
  all_goals
    obtain rfl : hardReset s = t := by simpa [transact] using ht
    exact ⟨hardReset u, rfl, by constructor <;> rfl, hemitted⟩

theorem step_of_sameEngine (he : State.SameEngine s u) (hemitted : u.emitted = s.emitted)
    (hnext : nextInput u = nextInput s) (h : step s = .next t) :
    ∃ v, step u = .next v ∧ State.SameEngine t v ∧ v.emitted = t.emitted := by
  unfold step at h ⊢
  rw [hnext]
  exact transact_of_sameEngine he.takeInput hemitted h

/-- A step takes one input off the host's list. -/
theorem step_pending (h : step s = .next t) : t.pending = s.pending.tail := by
  obtain ⟨rfl, -⟩ | ⟨rfl, -⟩ | ⟨w, -, hw⟩ := step_next_cases h
  · rfl
  · rfl
  · exact issue_pending hw

theorem runSteps_succ_of_step (h : step s = .next t) (n : Nat) : runSteps (n + 1) s = runSteps n t := by
  simp [runSteps, h]

theorem HostInput.eq_of_isIdle {h : HostInput} (hidle : h.isIdle = true) : ∃ w, h = .cycle false false w := by
  rcases h with ⟨_ | _, _ | _, w⟩ | w <;> simp_all [HostInput.isIdle]

/-- A run over a list of inputs and the run over those of them that are not idle, from states that agree. -/
theorem runSteps_filter_not_idle {inputs : List HostInput} (hs : s.Inv) (he : State.SameEngine s u)
    (hemitted : u.emitted = s.emitted) (hpending : s.pending = inputs.filter fun h => !h.isIdle)
    (hpending' : u.pending = inputs) :
    ∃ t v, runSteps (inputs.filter fun h => !h.isIdle).length s = .next t ∧
      runSteps inputs.length u = .next v ∧ State.SameEngine t v ∧ v.emitted = t.emitted := by
  induction inputs generalizing s u with
  | nil => exact ⟨s, u, rfl, rfl, he, hemitted⟩
  | cons h rest ih =>
    by_cases hidle : h.isIdle = true
    · obtain ⟨w, rfl⟩ := HostInput.eq_of_isIdle hidle
      have hstep : step u = .next (takeInput u).silent := step_of_idle_cycle (w := w) (by simp [nextInput, hpending'])
      have hdrop : ((HostInput.cycle false false w :: rest).filter fun h => !h.isIdle) =
          rest.filter fun h => !h.isIdle := List.filter_cons_of_neg (by simp [hidle])
      rw [hdrop] at hpending ⊢
      rw [List.length_cons, runSteps_succ_of_step hstep]
      exact ih hs (he.trans (by constructor <;> rfl)) hemitted hpending (by simp [hpending'])
    · have hkeep : ((h :: rest).filter fun h => !h.isIdle) = h :: rest.filter fun h => !h.isIdle :=
        List.filter_cons_of_pos (by simp [hidle])
      rw [hkeep] at hpending ⊢
      obtain ⟨m, hm⟩ := step_completes hs
      obtain ⟨m', hm', hmm', hmemitted⟩ :=
        step_of_sameEngine he hemitted (by simp [nextInput, hpending, hpending']) hm
      rw [List.length_cons, List.length_cons, runSteps_succ_of_step hm, runSteps_succ_of_step hm']
      exact ih (step_keeps_inv hs hm) hmm' hmemitted (by simp [step_pending hm, hpending])
        (by simp [step_pending hm', hpending'])

theorem runSteps_withInputs_filter_not_idle (hs : s.Inv) (inputs : List HostInput) :
    ∃ t v, runSteps (inputs.filter fun h => !h.isIdle).length
        (s.withInputs (inputs.filter fun h => !h.isIdle)) = .next t ∧
      runSteps inputs.length (s.withInputs inputs) = .next v ∧ State.SameEngine t v ∧ v.emitted = t.emitted :=
  runSteps_filter_not_idle (hs.withInputs _) (by constructor <;> rfl) rfl rfl rfl

theorem flatMap_updateBytes (pieces : List (List Byte)) :
    pieces.flatMap updateBytes = updateBytes pieces.flatten := by
  rw [updateBytes, List.map_flatten, List.flatMap_def]
  rfl

/-! ### UPDATE: a list of ABSORBs (R106) -/

/-- ABSORB of each byte of a list. -/
def State.absorbBytes (s : State) (data : List Byte) : State := data.foldl State.absorbByte s

theorem State.absorbBytes_cons (s : State) (d : Byte) (data : List Byte) :
    s.absorbBytes (d :: data) = (s.absorbByte d).absorbBytes data := rfl

/-- What every ABSORB leaves, a list of ABSORBs leaves. -/
theorem State.absorbBytes_frame {α : Type} (f : State → α) (hf : ∀ s d, f (s.absorbByte d) = f s) (s : State)
    (data : List Byte) : f (s.absorbBytes data) = f s := by
  induction data generalizing s with
  | nil => rfl
  | cons d data ih => rw [absorbBytes_cons, ih, hf]

theorem execAll_updateBytes (data : List Byte) (hf : s.fault = false) (hp : s.phase = .absorbing)
    (hb : s.buf.length ≤ 135) : execAll (updateBytes data) s = .next (s.absorbBytes data) := by
  induction data generalizing s with
  | nil => rfl
  | cons d data ih =>
    rw [State.absorbBytes_cons, ← ih (by simp [hf]) (by simp [hp]) (absorbByte_buf_length_le hb d)]
    exact execAll_cons (exec_absorb d hf hp hb) _

theorem blockAt_append_zero {blk : List Byte} (h : blk.length = rate) (data : List Byte) :
    blockAt (blk ++ data) 0 = blk := by
  simp [blockAt, List.take_left' h]

theorem blockAt_append_succ {blk : List Byte} (h : blk.length = rate) (data : List Byte) (j : Nat) :
    blockAt (blk ++ data) (j + 1) = blockAt data j := by
  have hdrop : rate * (j + 1) = blk.length + rate * j := by rw [h]; ring
  rw [blockAt, hdrop, List.drop_length_add_append, blockAt]

/-- Without a full block nothing is absorbed. -/
theorem sliceUpdate_short (A : Lanes) {buf data : List Byte} (h : (buf ++ data).length ≤ 135) :
    sliceUpdate A buf data = (A, buf ++ data) := by
  have hdiv : (buf ++ data).length / 136 = 0 := by omega
  simp only [sliceUpdate, rate_eq, hdiv]
  rfl

/-- A full first block is absorbed, and the rest is updated on from there. -/
theorem sliceUpdate_block (A : Lanes) {blk : List Byte} (h : blk.length = rate) (data : List Byte) :
    sliceUpdate A [] (blk ++ data) = sliceUpdate (keccakF (xorBlock A blk)) [] data := by
  have hdiv : (blk ++ data).length / rate = data.length / rate + 1 := by
    rw [List.length_append, h, Nat.add_div_left _ (by decide)]
  have hdrop : rate * (data.length / rate + 1) = blk.length + rate * (data.length / rate) := by rw [h]; ring
  simp only [sliceUpdate, List.nil_append, hdiv, List.range_succ_eq_map, List.foldl_cons, List.foldl_map,
    blockAt_append_zero h, Nat.succ_eq_add_one, blockAt_append_succ h]
  rw [hdrop, List.drop_length_add_append]

theorem sliceUpdate_append (A : Lanes) (buf data rest : List Byte) :
    sliceUpdate A (buf ++ data) rest = sliceUpdate A buf (data ++ rest) := by
  simp only [sliceUpdate, List.append_assoc]

/-- ABSORB of its first byte, then the slice update of the rest. -/
theorem sliceUpdate_cons (s : State) (d : Byte) (data : List Byte) :
    sliceUpdate s.lanes s.buf (d :: data) =
      sliceUpdate (s.absorbByte d).lanes (s.absorbByte d).buf data := by
  by_cases h : s.buf.length + 1 = rate
  · rw [State.absorbByte_full s d h]
    calc sliceUpdate s.lanes s.buf (d :: data)
        = sliceUpdate s.lanes [] ((s.buf ++ [d]) ++ data) := by simp [sliceUpdate]
      _ = sliceUpdate (keccakF (xorBlock s.lanes (s.buf ++ [d]))) [] data :=
        sliceUpdate_block _ (by simpa using h) data
  · rw [State.absorbByte_short s d h]
    exact (sliceUpdate_append s.lanes s.buf [d] data).symm

theorem absorbBytes_eq_sliceUpdate (data : List Byte) (hb : s.buf.length ≤ 135) :
    ((s.absorbBytes data).lanes, (s.absorbBytes data).buf) = sliceUpdate s.lanes s.buf data := by
  induction data generalizing s with
  | nil => simp [State.absorbBytes, sliceUpdate_short s.lanes (buf := s.buf) (data := []) (by simpa using hb)]
  | cons d data ih =>
    rw [State.absorbBytes_cons, ih (absorbByte_buf_length_le hb d), sliceUpdate_cons s]

theorem sliceUpdate_buf_length (A : Lanes) (buf data : List Byte) :
    (sliceUpdate A buf data).2.length = (buf.length + data.length) % 136 := by
  simp only [sliceUpdate, rate_eq, List.length_drop, List.length_append]
  omega

theorem absorbBytes_lanes (data : List Byte) (hb : s.buf.length ≤ 135) :
    (s.absorbBytes data).lanes = (sliceUpdate s.lanes s.buf data).1 :=
  congrArg Prod.fst (absorbBytes_eq_sliceUpdate data hb)

theorem absorbBytes_buf (data : List Byte) (hb : s.buf.length ≤ 135) :
    (s.absorbBytes data).buf = (sliceUpdate s.lanes s.buf data).2 :=
  congrArg Prod.snd (absorbBytes_eq_sliceUpdate data hb)

theorem absorbBytes_buf_length (data : List Byte) (hb : s.buf.length ≤ 135) :
    (s.absorbBytes data).buf.length = (s.buf.length + data.length) % 136 := by
  rw [absorbBytes_buf data hb, sliceUpdate_buf_length]

/-! ### Counts of permutations (R113) -/

theorem permutationsAll_cons (h : exec i s = .next t) (rest : List Instr) :
    permutationsAll (i :: rest) s = permutations i s + permutationsAll rest t := by
  simp [permutationsAll, h]

theorem permutationsAll_append {a : List Instr} (b : List Instr) (h : execAll a s = .next t) :
    permutationsAll (a ++ b) s = permutationsAll a s + permutationsAll b t := by
  induction a generalizing s with
  | nil =>
    obtain rfl : s = t := by simpa [execAll] using h
    simp [permutationsAll]
  | cons i rest ih =>
    obtain ⟨m, hm, hrest⟩ := execAll_cons_eq_next h
    rw [List.cons_append, permutationsAll_cons hm, permutationsAll_cons hm, ih hrest, Nat.add_assoc]

theorem permutationsAll_updateBytes (data : List Byte) (hf : s.fault = false) (hp : s.phase = .absorbing)
    (hb : s.buf.length ≤ 135) :
    permutationsAll (updateBytes data) s = (s.buf.length + data.length) / 136 := by
  induction data generalizing s with
  | nil =>
    have hdiv : s.buf.length / 136 = 0 := by omega
    simp [updateBytes, permutationsAll, hdiv]
  | cons d data ih =>
    have hrest := ih (s := s.absorbByte d) (by simp [hf]) (by simp [hp]) (absorbByte_buf_length_le hb d)
    have hcons : permutationsAll (updateBytes (d :: data)) s =
        permutations (.absorb d) s + permutationsAll (updateBytes data) (s.absorbByte d) :=
      permutationsAll_cons (exec_absorb d hf hp hb) _
    rw [hcons, hrest, List.length_cons]
    by_cases h : s.buf.length + 1 = rate
    · have hone : permutations (.absorb d) s = 1 := by simpa [permutations, hf, hp] using h
      rw [hone, State.absorbByte_full s d h]
      simp only [State.silent_buf, List.length_nil, rate_eq] at h ⊢
      omega
    · have hzero : permutations (.absorb d) s = 0 := (permutations_absorb_eq_zero_iff d hf hp).mpr h
      rw [hzero, State.absorbByte_short s d h]
      simp only [State.silent_buf, List.length_append, List.length_singleton]
      omega

/-! ### READ: a list of SQUEEZEs (R107) -/

/-- SQUEEZE `n` times. -/
def State.squeezeBytes (s : State) (n : Nat) : State := State.squeezeByte^[n] s

theorem State.squeezeBytes_succ (s : State) (n : Nat) :
    s.squeezeBytes (n + 1) = s.squeezeByte.squeezeBytes n := rfl

theorem State.squeezeBytes_succ' (s : State) (n : Nat) :
    s.squeezeBytes (n + 1) = (s.squeezeBytes n).squeezeByte :=
  Function.iterate_succ_apply' _ n s

/-- What every SQUEEZE leaves, a list of SQUEEZEs leaves. -/
theorem State.squeezeBytes_frame {α : Type} (f : State → α) (hf : ∀ s, f s.squeezeByte = f s) (s : State)
    (n : Nat) : f (s.squeezeBytes n) = f s := by
  induction n generalizing s with
  | zero => rfl
  | succ n ih => rw [squeezeBytes_succ, ih, hf]

theorem readBytes_succ (n : Nat) : readBytes (n + 1) = .squeeze :: readBytes n := rfl

theorem execAll_readBytes (n : Nat) (hf : s.fault = false) (hp : s.phase = .squeezing)
    (hc : s.sqCursor.toNat ≤ 135) : execAll (readBytes n) s = .next (s.squeezeBytes n) := by
  induction n generalizing s with
  | zero => rfl
  | succ n ih =>
    rw [readBytes_succ, execAll_cons (exec_squeeze hf hp hc), State.squeezeBytes_succ]
    exact ih (by simp [hf]) (by simp [hp]) (squeezeByte_sqCursor_le hc)

/-- The next byte `s` presents is byte `k` of the stream that starts at the window `S` (R107). -/
def State.AtStreamByte (s : State) (S : Lanes) (k : Nat) : Prop :=
  s.window = keccakF^[k / rate] S ∧ s.sqCursor.toNat = k % rate

variable {S : Lanes} {k : Nat}

theorem State.AtStreamByte.squeezed (h : s.AtStreamByte S k) : s.squeezed = streamByte S k := by
  obtain ⟨hwindow, hcursor⟩ := h
  rw [State.squeezed_eq, hwindow, hcursor, streamByte]

theorem State.squeezeByte_window (s : State) :
    s.squeezeByte.window = if s.sqCursor = 135#8 then keccakF s.window else s.window := by
  simp [State.window]

theorem squeezeByte_sqCursor_toNat (hc : s.sqCursor.toNat ≤ 135) :
    s.squeezeByte.sqCursor.toNat = (s.sqCursor.toNat + 1) % 136 := by
  rw [State.squeezeByte_sqCursor]
  split
  next h => rw [h]; rfl
  next h => bv_omega

/-- The SQUEEZE that delivers byte 135 owes a permutation (R29). -/
theorem squeezeByte_needPerm_toNat (hc : s.sqCursor.toNat ≤ 135) :
    s.squeezeByte.needPerm.toNat = (s.sqCursor.toNat + 1) / 136 := by
  rw [State.squeezeByte_needPerm]
  by_cases h : s.sqCursor = 135#8
  · rw [h]; rfl
  · have hdiv : (s.sqCursor.toNat + 1) / 136 = 0 := by bv_omega
    rw [hdiv, decide_eq_false h]
    rfl

/-- Past byte 135 of a window the next one is a permutation on. -/
theorem State.AtStreamByte.squeezeByte (h : s.AtStreamByte S k) : s.squeezeByte.AtStreamByte S (k + 1) := by
  obtain ⟨hwindow, hcursor⟩ := h
  rw [rate_eq] at hwindow hcursor
  have hcursor' : s.sqCursor = 135#8 ↔ k % 136 = 135 := by
    rw [← hcursor, ← BitVec.toNat_inj]
    rfl
  constructor
  · rw [State.squeezeByte_window, hwindow, rate_eq]
    by_cases hlast : k % 136 = 135
    · have hdiv : (k + 1) / 136 = k / 136 + 1 := by omega
      rw [if_pos (hcursor'.mpr hlast), hdiv, Function.iterate_succ_apply']
    · have hdiv : (k + 1) / 136 = k / 136 := by omega
      rw [if_neg (mt hcursor'.mp hlast), hdiv]
  · rw [squeezeByte_sqCursor_toNat (by omega), hcursor, rate_eq, Nat.mod_add_mod]

theorem State.AtStreamByte.squeezeBytes (h : s.AtStreamByte S k) (n : Nat) :
    (s.squeezeBytes n).AtStreamByte S (k + n) := by
  induction n with
  | zero => exact h
  | succ n ih =>
    rw [State.squeezeBytes_succ']
    exact ih.squeezeByte

/-- `n` SQUEEZEs emit the next `n` bytes of the stream. -/
theorem State.AtStreamByte.emitted (h : s.AtStreamByte S k) (n : Nat) :
    (s.squeezeBytes n).emitted = s.emitted ++ (List.range n).map fun j => streamByte S (k + j) := by
  induction n with
  | zero => simp [State.squeezeBytes]
  | succ n ih =>
    rw [State.squeezeBytes_succ', State.squeezeByte_emitted, ih, (h.squeezeBytes n).squeezed, List.range_succ,
      List.map_append, List.append_assoc]
    rfl

/-- A state with a legal cursor stands in the stream of its own window. -/
theorem State.atStreamByte_window (hc : s.sqCursor.toNat ≤ 135) : s.AtStreamByte s.window s.sqCursor.toNat := by
  have hdiv : s.sqCursor.toNat / 136 = 0 := by omega
  have hmod : s.sqCursor.toNat % 136 = s.sqCursor.toNat := by omega
  exact ⟨by rw [rate_eq, hdiv]; rfl, hmod.symm⟩

theorem permutations_squeeze (hf : s.fault = false) (hp : s.phase = .squeezing) :
    permutations .squeeze s = s.needPerm.toNat := by
  cases hn : s.needPerm <;> simp [permutations, hf, hp, hn]

/-- An owed permutation runs with the first byte, and one more for each window opened after it. -/
theorem permutationsAll_readBytes_succ (n : Nat) (hf : s.fault = false) (hp : s.phase = .squeezing)
    (hc : s.sqCursor.toNat ≤ 135) :
    permutationsAll (readBytes (n + 1)) s = s.needPerm.toNat + (s.sqCursor.toNat + n) / 136 := by
  induction n generalizing s with
  | zero =>
    have hdiv : s.sqCursor.toNat / 136 = 0 := by omega
    rw [readBytes_succ, permutationsAll_cons (exec_squeeze hf hp hc), permutations_squeeze hf hp, Nat.add_zero,
      hdiv]
    rfl
  | succ n ih =>
    have hrest := ih (s := s.squeezeByte) (by simp [hf]) (by simp [hp]) (squeezeByte_sqCursor_le hc)
    rw [squeezeByte_needPerm_toNat hc, squeezeByte_sqCursor_toNat hc] at hrest
    rw [readBytes_succ, permutationsAll_cons (exec_squeeze hf hp hc), permutations_squeeze hf hp, hrest]
    omega

/-! ### The padded message and the sponge over its blocks (R109) -/

/-- The buffered rest of a message is less than a block. -/
theorem length_drop_fullBlocks (M : List Byte) : (M.drop (rate * (M.length / rate))).length ≤ 135 := by
  simp only [List.length_drop, rate_eq]
  omega

theorem length_take_fullBlocks (M : List Byte) :
    (M.take (rate * (M.length / rate))).length = rate * (M.length / rate) := by
  simp only [List.length_take, rate_eq]
  omega

theorem paddedMessage_length (M : List Byte) : (paddedMessage M).length = 136 * (M.length / 136 + 1) := by
  rw [paddedMessage, List.length_append, length_take_fullBlocks, padBlock_length (length_drop_fullBlocks M),
    rate_eq, Nat.mul_succ]

/-- The padded message starts with the message. -/
theorem paddedMessage_take (M : List Byte) : (paddedMessage M).take M.length = M := by
  have hlen : M.length =
      (M.take (rate * (M.length / rate))).length + (M.drop (rate * (M.length / rate))).length := by
    rw [← List.length_append, List.take_append_drop]
  calc (paddedMessage M).take M.length
      = (paddedMessage M).take ((M.take (rate * (M.length / rate))).length +
          (M.drop (rate * (M.length / rate))).length) := by rw [← hlen]
    _ = M.take (rate * (M.length / rate)) ++ M.drop (rate * (M.length / rate)) := by
        rw [paddedMessage, List.take_length_add_append, padBlock_take (length_drop_fullBlocks M)]
    _ = M := List.take_append_drop _ M

/-- A block that lies in the first of two byte strings. -/
theorem blockAt_append_of_le {P : List Byte} (Q : List Byte) {j : Nat} (h : rate * (j + 1) ≤ P.length) :
    blockAt (P ++ Q) j = blockAt P j := by
  rw [rate_eq] at h
  rw [blockAt, blockAt, List.drop_append_of_le_length (by simp only [rate_eq]; omega),
    List.take_append_of_le_length (by simp only [List.length_drop, rate_eq]; omega)]

/-- The full blocks of the message are blocks of the padded message. -/
theorem blockAt_paddedMessage_of_lt (M : List Byte) {j : Nat} (hj : j < M.length / rate) :
    blockAt (paddedMessage M) j = blockAt M j := by
  have hle : rate * (j + 1) ≤ (M.take (rate * (M.length / rate))).length := by
    rw [length_take_fullBlocks]
    exact Nat.mul_le_mul_left rate hj
  have hM := blockAt_append_of_le (M.drop (rate * (M.length / rate))) hle
  rw [List.take_append_drop] at hM
  rw [paddedMessage, blockAt_append_of_le _ hle, hM]

/-- The last block of the padded message is the padding block of the rest. -/
theorem blockAt_paddedMessage_last (M : List Byte) :
    blockAt (paddedMessage M) (M.length / rate) = padBlock (M.drop (rate * (M.length / rate))) := by
  rw [blockAt, paddedMessage, List.drop_left' (length_take_fullBlocks M)]
  exact List.take_of_length_le (padBlock_length (length_drop_fullBlocks M)).le

theorem spongeAfter_congr {P Q : List Byte} {n : Nat} (h : ∀ j < n, blockAt P j = blockAt Q j) :
    spongeAfter P n = spongeAfter Q n := by
  induction n with
  | zero => rfl
  | succ n ih => rw [spongeAfter, spongeAfter, ih fun j hj => h j (by omega), h n (by omega)]

theorem spongeAfter_eq_foldl (P : List Byte) (n : Nat) :
    spongeAfter P n = (List.range n).foldl (fun B j => keccakF (xorBlock B (blockAt P j))) Lanes.zero := by
  induction n with
  | zero => rfl
  | succ n ih => rw [spongeAfter, ih, List.range_succ, List.foldl_append, List.foldl_cons, List.foldl_nil]

/-- The sponge over the padded message is the slice update of the message, and its padding block (R109). -/
theorem finalArray_eq_sliceUpdate (M : List Byte) :
    finalArray M = keccakF (xorBlock (sliceUpdate Lanes.zero [] M).1
      (padBlock (sliceUpdate Lanes.zero [] M).2)) := by
  rw [finalArray, spongeAfter, blockAt_paddedMessage_last,
    spongeAfter_congr fun j hj => blockAt_paddedMessage_of_lt M hj, spongeAfter_eq_foldl]
  rfl

theorem shake256_length (M : List Byte) (n : Nat) : (shake256 M n).length = n := by
  simp [shake256]

/-- More output bytes of one message follow the first ones (R110). -/
theorem shake256_add (M : List Byte) (n k : Nat) :
    shake256 M (n + k) = shake256 M n ++ (List.range k).map fun j => streamByte (finalArray M) (n + j) := by
  simp [shake256, List.range_add]

/-! ### Sessions -/

/-- INIT, ABSORB of each byte of a message, FINALIZE. -/
def State.absorbMessage (s : State) (M : List Byte) : State := (s.newSession.absorbBytes M).finish

@[simp] theorem State.absorbMessage_lanes (s : State) (M : List Byte) :
    (s.absorbMessage M).lanes = finalArray M := by
  have hb : s.newSession.buf.length ≤ 135 := by simp
  rw [State.absorbMessage, State.finish_lanes, absorbBytes_lanes M hb, absorbBytes_buf M hb]
  exact (finalArray_eq_sliceUpdate M).symm
@[simp] theorem State.absorbMessage_phase (s : State) (M : List Byte) : (s.absorbMessage M).phase = .squeezing := rfl
@[simp] theorem State.absorbMessage_sqCursor (s : State) (M : List Byte) : (s.absorbMessage M).sqCursor = 0#8 := rfl
@[simp] theorem State.absorbMessage_needPerm (s : State) (M : List Byte) : (s.absorbMessage M).needPerm = false := rfl
@[simp] theorem State.absorbMessage_fault (s : State) (M : List Byte) : (s.absorbMessage M).fault = s.fault :=
  s.newSession.absorbBytes_frame (·.fault) State.absorbByte_fault M
@[simp] theorem State.absorbMessage_emitted (s : State) (M : List Byte) : (s.absorbMessage M).emitted = s.emitted :=
  s.newSession.absorbBytes_frame (·.emitted) State.absorbByte_emitted M

/-- After its message a session stands at byte 0 of the output stream. -/
theorem absorbMessage_atStreamByte (s : State) (M : List Byte) :
    (s.absorbMessage M).AtStreamByte (finalArray M) 0 :=
  ⟨by simp [State.window], rfl⟩

theorem squeezeBytes_absorbMessage_emitted (s : State) (M : List Byte) (n : Nat) :
    ((s.absorbMessage M).squeezeBytes n).emitted = s.emitted ++ shake256 M n := by
  simp [(absorbMessage_atStreamByte s M).emitted n, shake256]

theorem squeezeBytes_absorbMessage_fault (s : State) (M : List Byte) (n : Nat) :
    ((s.absorbMessage M).squeezeBytes n).fault = s.fault :=
  (State.squeezeBytes_frame (·.fault) State.squeezeByte_fault _ n).trans (s.absorbMessage_fault M)

section Session

variable (M : List Byte) (n : Nat) (hf : s.fault = false)
include hf

theorem execAll_updateBytes_newSession :
    execAll (updateBytes M) s.newSession = .next (s.newSession.absorbBytes M) :=
  execAll_updateBytes M hf rfl (by simp)

theorem exec_finalize_absorbBytes :
    exec .finalize (s.newSession.absorbBytes M) = .next (s.absorbMessage M) := by
  refine exec_finalize ?_ ?_ ?_
  · rw [s.newSession.absorbBytes_frame (·.fault) State.absorbByte_fault]
    exact hf
  · exact s.newSession.absorbBytes_frame (·.phase) State.absorbByte_phase M
  · rw [absorbBytes_buf_length M (by simp)]
    omega

theorem execAll_update_finalize :
    execAll (updateBytes M ++ finalizeXof) s.newSession = .next (s.absorbMessage M) := by
  rw [execAll_append _ _ _ _ (execAll_updateBytes_newSession M hf)]
  exact execAll_cons (exec_finalize_absorbBytes M hf) []

theorem execAll_new_update :
    execAll (newSession ++ updateBytes M) s = .next (s.newSession.absorbBytes M) :=
  (execAll_cons (exec_init hf) _).trans (execAll_updateBytes_newSession M hf)

theorem execAll_new_update_finalize :
    execAll (newSession ++ updateBytes M ++ finalizeXof) s = .next (s.absorbMessage M) := by
  rw [execAll_append _ _ _ _ (execAll_new_update M hf)]
  exact execAll_cons (exec_finalize_absorbBytes M hf) []

theorem execAll_readBytes_absorbMessage :
    execAll (readBytes n) (s.absorbMessage M) = .next ((s.absorbMessage M).squeezeBytes n) :=
  execAll_readBytes n (by simp [hf]) rfl (by simp)

/-- What a whole session leads to. -/
theorem execAll_shakeSession :
    execAll (shakeSession M n) s = .next ((s.absorbMessage M).squeezeBytes n) :=
  (execAll_append _ _ _ _ (execAll_new_update_finalize M hf)).trans (execAll_readBytes_absorbMessage M n hf)

theorem permutationsAll_new_update : permutationsAll (newSession ++ updateBytes M) s = M.length / 136 := by
  have hinit : permutationsAll (newSession ++ updateBytes M) s =
      permutations .init s + permutationsAll (updateBytes M) s.newSession := permutationsAll_cons (exec_init hf) _
  rw [hinit, permutationsAll_updateBytes (s := s.newSession) M hf rfl (by simp)]
  simp [permutations]

theorem permutationsAll_new_update_finalize :
    permutationsAll (newSession ++ updateBytes M ++ finalizeXof) s = M.length / 136 + 1 := by
  have hphase : (s.newSession.absorbBytes M).phase = .absorbing :=
    s.newSession.absorbBytes_frame (·.phase) State.absorbByte_phase M
  have hfault : (s.newSession.absorbBytes M).fault = false :=
    (s.newSession.absorbBytes_frame (·.fault) State.absorbByte_fault M).trans hf
  have hlast : permutationsAll finalizeXof (s.newSession.absorbBytes M) = 1 := by
    rw [finalizeXof, permutationsAll_cons (exec_finalize_absorbBytes M hf),
      permutations_finalize_eq_one hfault hphase]
    rfl
  rw [permutationsAll_append _ (execAll_new_update M hf), permutationsAll_new_update M hf, hlast]

/-- The output of a session opens a new window with every 136th byte after the first. -/
theorem permutationsAll_readBytes_absorbMessage :
    permutationsAll (readBytes n) (s.absorbMessage M) = if n = 0 then 0 else (n - 1) / 136 := by
  cases n with
  | zero => rfl
  | succ n => simp [permutationsAll_readBytes_succ (s := s.absorbMessage M) n (by simp [hf]) rfl (by simp)]

theorem permutationsAll_shakeSession : permutationsAll (shakeSession M n) s =
    M.length / 136 + 1 + (if n = 0 then 0 else (n - 1) / 136) := by
  rw [shakeSession, permutationsAll_append _ (execAll_new_update_finalize M hf),
    permutationsAll_new_update_finalize M hf, permutationsAll_readBytes_absorbMessage M n hf]

end Session

/-- A message of one block leaves it absorbed, and the buffer empty. -/
theorem absorbBytes_block {M : List Byte} (hM : M.length = rate) (s : State) :
    (s.newSession.absorbBytes M).lanes = keccakF (xorBlock Lanes.zero M) ∧
      (s.newSession.absorbBytes M).buf = [] := by
  have hslice : sliceUpdate Lanes.zero [] M = (keccakF (xorBlock Lanes.zero M), []) := by
    simpa [sliceUpdate_short] using sliceUpdate_block Lanes.zero hM []
  have hb : s.newSession.buf.length ≤ 135 := by simp
  have hlanes := absorbBytes_lanes M hb
  have hbuf := absorbBytes_buf M hb
  rw [State.newSession_lanes, State.newSession_buf, hslice] at hlanes hbuf
  exact ⟨hlanes, hbuf⟩

end Sys2Proof.Machine

namespace Sys2Proof.Proofs
open Sys2Proof.Machine

/-- Settles O51, by induction on the bytes: each ABSORB is one step of the slice update. -/
theorem updateIsTheSliceUpdate : Obligations.UpdateIsTheSliceUpdate := by
  refine ⟨fun data s hf hp hb => ⟨s.absorbBytes data, execAll_updateBytes data hf hp hb,
    absorbBytes_eq_sliceUpdate data hb, ?_, ?_, ?_, ?_, ?_, ?_, absorbBytes_buf_length data hb,
    permutationsAll_updateBytes data hf hp hb⟩, fun _ => rfl⟩
  · exact s.absorbBytes_frame (·.phase) State.absorbByte_phase data
  · exact s.absorbBytes_frame (·.sqCursor) State.absorbByte_sqCursor data
  · exact s.absorbBytes_frame (·.needPerm) State.absorbByte_needPerm data
  · exact s.absorbBytes_frame (·.fault) State.absorbByte_fault data
  · exact s.absorbBytes_frame (·.errCode) State.absorbByte_errCode data
  · exact s.absorbBytes_frame (·.emitted) State.absorbByte_emitted data

/-- Settles O52: a state stands in the stream of its window at its cursor, and each SQUEEZE moves one byte on. -/
theorem readDeliversTheStream : Obligations.ReadDeliversTheStream := by
  refine ⟨?_, ⟨rfl, fun _ => ⟨rfl, rfl⟩⟩, fun _ _ => List.replicate_append_replicate⟩
  rintro n s _ hf hp hc - rfl
  exact ⟨_, execAll_readBytes n hf hp hc, (State.atStreamByte_window hc).emitted n,
    (State.squeezeBytes_frame (·.fault) State.squeezeByte_fault s n).trans hf,
    (State.squeezeBytes_frame (·.phase) State.squeezeByte_phase s n).trans hp⟩

/-- Settles O53: the slice update of the message and its padding block are the sponge over the padded message, whose
array starts the stream. -/
theorem sessionComputesShake256 : Obligations.SessionComputesShake256 := by
  refine ⟨fun M s hf => ⟨_, execAll_new_update_finalize M hf, by simp⟩,
    fun M n s hf => ⟨_, execAll_shakeSession M n hf, ?_, squeezeBytes_absorbMessage_emitted s M n⟩,
    fun M n => ⟨(State.reset.absorbMessage M).squeezeBytes n, ?_,
      squeezeBytes_absorbMessage_emitted State.reset M n⟩,
    fun M => ⟨paddedMessage_length M, paddedMessage_take M⟩⟩
  · rw [squeezeBytes_absorbMessage_fault, hf]
  · exact (execAll_append _ _ _ _ (execAll_update_finalize (s := State.reset) M rfl)).trans
      (execAll_readBytes_absorbMessage M n rfl)

/-- Settles O30; the example is the session over the empty message. -/
theorem initStartsAFreshSession : Obligations.InitStartsAFreshSession :=
  ⟨decode_encode .init, fun _ hf => exec_init hf, fun _ hf => exec_of_fault .init hf, rfl,
    fun _ _ _ => eq_init_of_exec_leaves_squeezing, fun s hf =>
      ⟨_, execAll_shakeSession [] 64 hf, squeezeBytes_absorbMessage_emitted s [] 64⟩⟩

/-- Settles O54: both sessions emit the start of one stream. -/
theorem outputIsExtendable : Obligations.OutputIsExtendable := by
  intro M n m s hf hnm
  obtain ⟨k, rfl⟩ : ∃ k, m = n + k := Nat.exists_eq_add_of_le hnm.le
  refine ⟨_, _, (List.range k).map fun j => streamByte (finalArray M) (n + j), execAll_shakeSession M n hf,
    execAll_shakeSession M (n + k) hf, ?_, by simp⟩
  rw [squeezeBytes_absorbMessage_emitted, squeezeBytes_absorbMessage_emitted, shake256_add, List.append_assoc]

/-- Settles O55: no command reads the host's fields, and both sessions emit SHAKE256 of the message. -/
theorem commandsAreDeterministic : Obligations.CommandsAreDeterministic :=
  ⟨fun _ _ _ _ he h => issue_of_sameEngine he h, fun M n s u hs hu =>
    ⟨_, _, shake256 M n, execAll_shakeSession M n hs, execAll_shakeSession M n hu,
      squeezeBytes_absorbMessage_emitted s M n, squeezeBytes_absorbMessage_emitted u M n, shake256_length M n⟩⟩

/-- Settles O56, part by part: INIT and the ABSORBs, FINALIZE, the SQUEEZEs. -/
theorem permutationCount : Obligations.PermutationCount :=
  fun M n _ hf => ⟨permutationsAll_new_update M hf, permutationsAll_new_update_finalize M hf,
    permutationsAll_shakeSession M n hf⟩

/-- Settles O57: the 136th ABSORB empties the buffer, so FINALIZE pads an empty one. -/
theorem boundaryScenario : Obligations.BoundaryScenario := by
  intro M s hM hf
  obtain ⟨hlanes, hbuf⟩ := absorbBytes_block hM s
  refine ⟨_, _, execAll_new_update M hf, hbuf, hlanes, ?_, exec_finalize_absorbBytes M hf, ?_, ?_⟩
  · rw [permutationsAll_new_update M hf, hM]
  · rw [State.absorbMessage, State.finish_lanes, hbuf, padBlock_nil]
  · rw [permutationsAll_new_update_finalize M hf, hM]

/-- Settles O10: each of the two lists runs as its inputs that are not idle do, and those are the same. -/
theorem chunksAndIdleCyclesAreInvisible : Obligations.ChunksAndIdleCyclesAreInvisible := by
  refine ⟨flatMap_updateBytes, fun s a b hs hab => ?_⟩
  obtain ⟨m, t, hm, ht, hmt, htemitted⟩ := runSteps_withInputs_filter_not_idle hs a
  obtain ⟨m', u, hm', hu, hmu, huemitted⟩ := runSteps_withInputs_filter_not_idle hs b
  rw [← hab, hm] at hm'
  obtain rfl : m = m' := by simpa using hm'
  exact ⟨t, u, ht, hu, hmt.symm.trans hmu, huemitted.trans htemitted.symm⟩

end Sys2Proof.Proofs
end

section
/-! PROOFS. Faults (60_exceptions.md R131 to R139): which command raises which cause, what fault entry writes, the
refusals while faulted, reset as the only way out, and the programs on which no fault occurs. -/

namespace Sys2Proof.Machine

variable {i : Instr} {s t : State}

/-! ### The contract violations (R132) -/

/-- The pairs of command and phase that the table of R108 does not permit. -/
theorem not_permitted_iff {p : Phase} : ¬permitted i p ↔
    ((∃ d, i = .absorb d) ∧ p = .squeezing) ∨ (i = .squeeze ∧ p = .absorbing) ∨
      (i = .finalize ∧ p = .squeezing) := by
  cases i <;> cases p <;> simp [permitted]

/-- An unfaulted Engine takes a fault on a command exactly when the phase forbids it. -/
theorem exec_faults_iff_not_permitted (hf : s.fault = false) :
    (∃ t, exec i s = .next t ∧ t.fault = true) ↔ ¬permitted i s.phase := by
  constructor
  · rintro ⟨t, h, ht⟩ hp
    obtain ⟨hfault, -⟩ := exec_latch_of_permitted h hp
    simp [hfault, hf] at ht
  · intro hp
    obtain ⟨c, -, he⟩ := exec_of_violation hf hp
    exact ⟨s.raiseFault c, he, rfl⟩

/-! ### What a word and a step write to the latch (R131, R134) -/

/-- A word leaves the latch and its code, or it takes a fault of an unfaulted Engine. -/
theorem issue_latch_cases {w : CmdWord} (h : issue w s = .next t) :
    (t.fault = s.fault ∧ t.errCode = s.errCode) ∨ (s.fault = false ∧ ∃ c, t = s.raiseFault c) := by
  obtain ⟨-, rfl⟩ | ⟨i, -, hi⟩ := issue_next_cases h
  · cases hf : s.fault with
    | true => exact .inl (by simp [illegalWord, hf])
    | false => exact .inr ⟨rfl, .illegalCommand, by simp [illegalWord, hf]⟩
  · obtain ⟨-, rfl⟩ | ⟨hf, -, c, -, rfl⟩ | ⟨-, -, rfl⟩ := exec_next_cases hi
    · exact .inl ⟨rfl, rfl⟩
    · exact .inr ⟨hf, c, rfl⟩
    · exact .inl ⟨performed_fault i s, performed_errCode i s⟩

/-- A word that takes an unfaulted Engine into the faulted state does what raising its cause does. -/
theorem eq_raiseFault_of_issue_faults {w : CmdWord} (hf : s.fault = false) (h : issue w s = .next t)
    (ht : t.fault = true) : ∃ c, t = s.raiseFault c := by
  obtain ⟨hfault, -⟩ | ⟨-, hc⟩ := issue_latch_cases h
  · simp [hfault, hf] at ht
  · exact hc

/-- Codes 5, 6 and 7 are never written (R131). -/
theorem step_errCode (h : step s = .next t) : t.errCode = s.errCode ∨ t.errCode.toNat ≤ 4 := by
  obtain ⟨rfl, -⟩ | ⟨rfl, -⟩ | ⟨w, -, hw⟩ := step_next_cases h
  · exact .inr (by simp)
  · exact .inl rfl
  · obtain ⟨-, hcode⟩ | ⟨-, c, rfl⟩ := issue_latch_cases hw
    · exact .inl hcode
    · exact .inr c.code_le_four

/-! ### While `fault` = 1 (R136, R137) -/

/-- The state after fault entry has presented no response, so a refused word leaves all of it. -/
theorem State.raiseFault_refuse (s : State) (c : Cause) : (s.raiseFault c).refuse = s.raiseFault c := rfl

/-- Without a reset, a step of a faulted Engine takes the host's input and does nothing else. -/
theorem step_of_fault (hf : s.fault = true) (hn : (nextInput s).noReset = true) :
    step s = .next (takeInput s).silent := by
  rcases hnext : nextInput s with ⟨_ | _, _ | _, w⟩ | w
  case cycle.false.false => exact step_of_idle_cycle hnext
  case cycle.false.true => exact (step_of_offer hnext).trans (issue_of_fault w hf)
  all_goals simp [hnext, HostInput.noReset] at hn

theorem sameEngine_takeInput_silent (s : State) : State.SameEngine s (takeInput s).silent := by
  constructor <;> rfl

theorem sameEngine_reset_hardReset (s : State) : State.SameEngine State.reset (hardReset s) := by
  constructor <;> rfl

/-- A faulted Engine takes a list of inputs without reset and stays as it is; after the first of them no response
is present. -/
theorem runSteps_of_fault {inputs : List HostInput} (hf : s.fault = true) (hpending : s.pending = inputs)
    (hn : ∀ h ∈ inputs, h.noReset = true) :
    ∃ t, runSteps inputs.length s = .next t ∧ State.SameEngine s t ∧ t.emitted = s.emitted ∧
      (s.rsp = none ∨ inputs ≠ [] → t.rsp = none) := by
  induction inputs generalizing s with
  | nil => exact ⟨s, rfl, by constructor <;> rfl, rfl, by simp⟩
  | cons h rest ih =>
    obtain ⟨hh, hrest⟩ := List.forall_mem_cons.mp hn
    have hstep := step_of_fault hf (by simpa [nextInput, hpending] using hh)
    obtain ⟨t, ht, hsame, hemitted, hrsp⟩ := ih (s := (takeInput s).silent) hf (by simp [hpending]) hrest
    exact ⟨t, (runSteps_succ_of_step hstep _).trans ht, (sameEngine_takeInput_silent s).trans hsame, hemitted,
      fun _ => hrsp (.inl rfl)⟩

/-- Once faulted, commands alone do not bring the Engine back. -/
theorem execAll_of_fault (program : List Instr) (hf : s.fault = true) :
    ∃ t, execAll program s = .next t ∧ t.fault = true := by
  induction program generalizing s with
  | nil => exact ⟨s, rfl, hf⟩
  | cons i rest ih =>
    rw [execAll_cons (exec_of_fault i hf)]
    exact ih hf

/-! ### The programs on which no fault occurs (R139) -/

/-- A program is well formed when its first command is permitted and the rest is well formed from the phase that
command leaves. -/
theorem wf_cons_iff (i : Instr) (rest : List Instr) (s : State) :
    Program.wf (decide (s.phase = .squeezing)) (i :: rest) = true ↔
      permitted i s.phase ∧ Program.wf (decide ((performed i s).phase = .squeezing)) rest = true := by
  cases i <;> cases hp : s.phase <;> simp [Program.wf, permitted, performed, hp]

theorem execAll_good_iff_wf (program : List Instr) (hs : s.Inv) (hf : s.fault = false) :
    ∃ t, execAll program s = .next t ∧
      (t.Good ↔ Program.wf (decide (s.phase = .squeezing)) program = true) := by
  induction program generalizing s with
  | nil => exact ⟨s, rfl, by simp [State.Good, hf, Program.wf]⟩
  | cons i rest ih =>
    rw [wf_cons_iff]
    by_cases hp : permitted i s.phase
    · rw [execAll_cons (exec_of_permitted_of_inv hs hf hp)]
      simpa [hp] using ih (hs.performed hp) ((performed_fault i s).trans hf)
    · obtain ⟨c, -, he⟩ := exec_of_violation hf hp
      obtain ⟨t, ht, hfault⟩ := execAll_of_fault rest (State.raiseFault_fault s c)
      exact ⟨t, (execAll_cons he rest).trans ht, by simp [State.Good, hfault, hp]⟩

end Sys2Proof.Machine

namespace Sys2Proof.Proofs
open Sys2Proof.Machine

/-- Settles O41: a command faults exactly when it is not permitted, and the table of R108 says when that is. -/
theorem contractViolationsExactly : Obligations.ContractViolationsExactly :=
  fun _ _ hf => (exec_faults_iff_not_permitted hf).trans not_permitted_iff

/-- Settles O42: each cause raises its code; a step keeps the code bound, and the invariant ties code 0 to the
latch. -/
theorem causeCodes : Obligations.CauseCodes :=
  ⟨fun d _ hf hp => ⟨_, exec_of_violation_eq hf (not_permitted_absorb_of_squeezing d hp) rfl, rfl, rfl⟩,
    fun _ hf hp => ⟨_, exec_of_violation_eq hf (not_permitted_squeeze_of_absorbing hp) rfl, rfl, rfl⟩,
    fun _ hf hp => ⟨_, exec_of_violation_eq hf (not_permitted_finalize_of_squeezing hp) rfl, rfl, rfl⟩,
    fun _ _ hf hd => ⟨_, issue_of_illegal_eq hd hf, rfl, rfl⟩,
    fun _ _ h => step_errCode h,
    fun _ _ hs h ht => (step_keeps_inv hs h).latch.mp ht⟩

/-- Settles O43: fault entry is `raiseFault` and nothing else, and the state it leaves refuses every word. -/
theorem faultEntryIsPrecise : Obligations.FaultEntryIsPrecise := by
  refine ⟨fun w s t hf h ht => ?_,
    exec_of_violation_eq rfl (not_permitted_squeeze_of_absorbing (s := State.reset) rfl) rfl⟩
  obtain ⟨c, rfl⟩ := eq_raiseFault_of_issue_faults hf h ht
  refine ⟨c, rfl, rfl, rfl, rfl, fun v => ?_⟩
  rw [issue_of_fault v ht, State.raiseFault_refuse]

/-- Settles O44, by induction on the inputs: each leaves the Engine as it is. -/
theorem faultedEngineRefusesEveryWord : Obligations.FaultedEngineRefusesEveryWord := by
  refine ⟨fun w s hf => issue_of_fault w hf, fun inputs s hf hn => ?_⟩
  obtain ⟨t, ht, hsame, hemitted, hrsp⟩ := runSteps_of_fault (s := s.withInputs inputs) hf rfl hn
  exact ⟨t, ht, (sameEngine_withInputs s inputs).trans hsame, hemitted,
    fun hne => by simp [State.rspValid, hrsp (.inr hne)]⟩

/-- Settles O45: without reset a faulted Engine stays as it is, and a reset gives the reset values. -/
theorem onlyResetClearsTheLatch : Obligations.OnlyResetClearsTheLatch := by
  refine fun s t hf h => ⟨fun hn => ?_, fun hreset => ?_⟩
  · rw [step_of_fault hf hn] at h
    obtain rfl : (takeInput s).silent = t := by simpa using h
    exact ⟨hf, rfl⟩
  · rw [eq_hardReset_of_step h hreset]
    exact sameEngine_reset_hardReset _

/-- Settles O47, by induction on the program: a permitted command leads to a legal unfaulted state of the phase the
rest starts from, and after a violation the latch stays set. -/
theorem wellFormedProgramsNeverFault : Obligations.WellFormedProgramsNeverFault :=
  fun program _ hs hf => execAll_good_iff_wf program hs hf

end Sys2Proof.Proofs
end

section
/-! PROOFS. Reset, INIT and the completion of every step (70_reset_and_hazards.md R150, R151, R158), and timing that
does not depend on data (R160). -/

namespace Sys2Proof.Machine

variable {i j : Instr} {s t u : State}

/-! ### A reset cycle and an abandoned command (R150) -/

theorem step_of_reset (hreset : (nextInput s).noReset = false) : step s = .next (hardReset (takeInput s)) := by
  rcases hnext : nextInput s with ⟨_ | _, v, w⟩ | w
  case cycle.false => simp [hnext, HostInput.noReset] at hreset
  case cycle.true => simp [step, hnext, transact]
  case abandoned => simp [step, hnext, transact]

/-! ### Commands that differ in their data byte alone -/

/-- Two commands of one opcode are equal, or both are ABSORB. -/
theorem eq_or_absorb_of_sameOpcode (h : sameOpcode i j) : i = j ∨ ∃ d e, i = .absorb d ∧ j = .absorb e := by
  cases i <;> cases j <;> simp_all [sameOpcode]

theorem sameOpcode.symm (h : sameOpcode i j) : sameOpcode j i := by
  obtain rfl | ⟨d, e, rfl, rfl⟩ := eq_or_absorb_of_sameOpcode h
  · exact h
  · exact trivial

theorem sameOpcode.permitted_iff (h : sameOpcode i j) (p : Phase) : permitted i p ↔ permitted j p := by
  obtain rfl | ⟨d, e, rfl, rfl⟩ := eq_or_absorb_of_sameOpcode h <;> rfl

theorem sameOpcode.violation_eq (h : sameOpcode i j) : violation i = violation j := by
  obtain rfl | ⟨d, e, rfl, rfl⟩ := eq_or_absorb_of_sameOpcode h <;> rfl

theorem sameOpcode.permutations_eq (h : sameOpcode i j) (s : State) : permutations i s = permutations j s := by
  obtain rfl | ⟨d, e, rfl, rfl⟩ := eq_or_absorb_of_sameOpcode h <;> rfl

theorem sameOpcode.fits (h : sameOpcode i j) (hi : fits i s) : fits j s := by
  obtain rfl | ⟨d, e, rfl, rfl⟩ := eq_or_absorb_of_sameOpcode h <;> exact hi

/-! ### States that differ in data values alone -/

theorem State.SameControl.symm (h : State.SameControl s t) : State.SameControl t s :=
  ⟨h.bufLength.symm, h.phase.symm, h.sqCursor.symm, h.needPerm.symm, h.fault.symm, h.errCode.symm⟩

theorem State.SameControl.fits (hc : State.SameControl s u) (h : fits i s) : fits i u := by
  cases i with
  | init => exact trivial
  | absorb d => simpa [Machine.fits, hc.bufLength] using h
  | finalize => simpa [Machine.fits, hc.bufLength] using h
  | squeeze => simpa [Machine.fits, hc.sqCursor] using h

/-- How often a command permutes is a function of the control elements (R113). -/
theorem State.SameControl.permutations_eq (hc : State.SameControl s u) (i : Instr) :
    permutations i s = permutations i u := by
  obtain ⟨hbuf, hphase, -, hneed, hfault, -⟩ := hc
  simp only [permutations, hbuf, hphase, hneed, hfault]

theorem State.SameControl.refuse (hc : State.SameControl s u) : State.SameControl s.refuse u.refuse :=
  ⟨hc.bufLength, hc.phase, hc.sqCursor, hc.needPerm, hc.fault, hc.errCode⟩

theorem State.SameControl.raiseFault (hc : State.SameControl s u) (c : Cause) :
    State.SameControl (s.raiseFault c) (u.raiseFault c) :=
  ⟨hc.bufLength, hc.phase, hc.sqCursor, hc.needPerm, rfl, rfl⟩

theorem State.SameControl.finish (hc : State.SameControl s u) : State.SameControl s.finish u.finish where
  bufLength := by simp
  phase := by simp
  sqCursor := by simp
  needPerm := by simp
  fault := hc.fault
  errCode := hc.errCode

theorem absorbByte_buf_length (s : State) (d : Byte) :
    (s.absorbByte d).buf.length = if s.buf.length + 1 = rate then 0 else s.buf.length + 1 := by
  split
  case isTrue h => simp [State.absorbByte_full s d h]
  case isFalse h => simp [State.absorbByte_short s d h]

theorem State.SameControl.absorbByte (hc : State.SameControl s u) (d e : Byte) :
    State.SameControl (s.absorbByte d) (u.absorbByte e) where
  bufLength := by rw [absorbByte_buf_length, absorbByte_buf_length, hc.bufLength]
  phase := by simpa using hc.phase
  sqCursor := by simpa using hc.sqCursor
  needPerm := by simpa using hc.needPerm
  fault := by simpa using hc.fault
  errCode := by simpa using hc.errCode

theorem State.SameControl.squeezeByte (hc : State.SameControl s u) :
    State.SameControl s.squeezeByte u.squeezeByte where
  bufLength := by simpa using hc.bufLength
  phase := by simpa using hc.phase
  sqCursor := by simp [hc.sqCursor]
  needPerm := by simp [hc.sqCursor]
  fault := by simpa using hc.fault
  errCode := by simpa using hc.errCode

theorem State.SameControl.performed (hc : State.SameControl s u) (h : sameOpcode i j) :
    State.SameControl (performed i s) (performed j u) := by
  obtain rfl | ⟨d, e, rfl, rfl⟩ := eq_or_absorb_of_sameOpcode h
  · cases i with
    | init => exact ⟨rfl, rfl, rfl, rfl, hc.fault, hc.errCode⟩
    | absorb d => exact hc.absorbByte d d
    | finalize => exact hc.finish
    | squeeze => exact hc.squeezeByte
  · exact hc.absorbByte d e

/-! ### Timing depends on the control elements alone (R160) -/

theorem permutations_of_sameControl (h : sameOpcode i j) (hc : State.SameControl s u) :
    permutations i s = permutations j u :=
  (h.permutations_eq s).trans (hc.permutations_eq j)

theorem commandCycles_of_sameControl (h : sameOpcode i j) (hc : State.SameControl s u) :
    commandCycles i s = commandCycles j u := by
  rw [commandCycles, commandCycles, permutations_of_sameControl h hc]

/-- Commands of one opcode, from states that agree in the control elements, make the same checks and lead to states
that agree again. -/
theorem exec_of_sameControl (h : sameOpcode i j) (hc : State.SameControl s u) (ht : exec i s = .next t) :
    ∃ v, exec j u = .next v ∧ State.SameControl t v := by
  have hpermitted : permitted i s.phase ↔ permitted j u.phase := by
    rw [hc.phase]
    exact h.permitted_iff _
  obtain ⟨hf, rfl⟩ | ⟨hf, hp, c, hv, rfl⟩ | ⟨hf, hp, rfl⟩ := exec_next_cases ht
  · exact ⟨_, exec_of_fault j (hc.fault.trans hf), hc.refuse⟩
  · have hu : exec j u = .next (u.raiseFault c) :=
      exec_of_violation_eq (hc.fault.trans hf) (mt hpermitted.mpr hp) (h.violation_eq ▸ hv)
    exact ⟨_, hu, hc.raiseFault c⟩
  · obtain ⟨hfits, -⟩ := (exec_eq_next_iff_of_permitted hf hp).mp ht
    have hu : exec j u = .next (performed j u) :=
      exec_of_fits (hc.fault.trans hf) (hpermitted.mp hp) (hc.fits (h.fits hfits))
    exact ⟨_, hu, hc.performed h⟩

/-- A command that stops the model ends the count. -/
theorem permutationsAll_cons_of_stop (h : ∀ t, exec i s ≠ .next t) (rest : List Instr) :
    permutationsAll (i :: rest) s = permutations i s := by
  cases he : exec i s with
  | next t => exact absurd he (h t)
  | fault f => simp [permutationsAll, he]
  | refused r => simp [permutationsAll, he]

theorem permutationsAll_of_sameControl {a b : List Instr} (hab : List.Forall₂ sameOpcode a b)
    (hc : State.SameControl s u) : permutationsAll a s = permutationsAll b u := by
  induction hab generalizing s u with
  | nil => rfl
  | @cons i j a b hij _ ih =>
    have hhead := permutations_of_sameControl hij hc
    by_cases hnext : ∃ t, exec i s = .next t
    · obtain ⟨t, ht⟩ := hnext
      obtain ⟨v, hv, htv⟩ := exec_of_sameControl hij hc ht
      rw [permutationsAll_cons ht, permutationsAll_cons hv, hhead, ih htv]
    · have hstop : ∀ v, exec j u ≠ .next v := by
        intro v hv
        obtain ⟨t, ht, -⟩ := exec_of_sameControl hij.symm hc.symm hv
        exact hnext ⟨t, ht⟩
      rw [permutationsAll_cons_of_stop (not_exists.mp hnext), permutationsAll_cons_of_stop hstop, hhead]

end Sys2Proof.Machine

namespace Sys2Proof.Proofs
open Sys2Proof.Machine

/-- Settles O58: the checks and the counts read the control elements alone, and a command keeps their agreement; for
lists by induction along the two. -/
theorem timingIsIndependentOfData : Obligations.TimingIsIndependentOfData :=
  ⟨fun _ _ _ _ h hc => ⟨permutations_of_sameControl h hc, commandCycles_of_sameControl h hc,
    fun _ ht => exec_of_sameControl h hc ht⟩, fun _ _ _ _ hab hc => permutationsAll_of_sameControl hab hc⟩

/-- Settles O13: INIT's new session holds the reset values, and only the latch tells the two apart. -/
theorem initAndResetAgree : Obligations.InitAndResetAgree :=
  fun s => ⟨fun hf => ⟨s.newSession, exec_init hf, rfl, rfl, rfl, rfl, rfl, rfl, rfl, rfl⟩,
    fun hf => exec_of_fault .init hf, rfl, rfl⟩

/-- Settles O15: idle and reset cycles always complete, and the invariant keeps a command off the model's stops. -/
theorem everyStepCompletes : Obligations.EveryStepCompletes := fun _ hs => step_completes hs

/-- Settles O12: a reset cycle and an abandoned command are the inputs with a reset, and they leave `hardReset`. -/
theorem hardwareResetGivesResetValues : Obligations.HardwareResetGivesResetValues := by
  refine ⟨fun s h rest hpending hinput => ?_, fun i _ => Lanes.lane_zero i, rfl, rfl, rfl, rfl, rfl, rfl, rfl, rfl,
    rfl, rfl⟩
  have hreset : (nextInput s).noReset = false := by
    obtain ⟨v, w, rfl⟩ | ⟨w, rfl⟩ := hinput <;> simp [nextInput, hpending, HostInput.noReset]
  exact ⟨_, step_of_reset hreset, fun i _ => Lanes.lane_zero i, rfl, rfl, rfl, rfl, rfl, rfl, rfl, rfl, rfl, rfl⟩

end Sys2Proof.Proofs
end
